-- ==== Sys2Proof/Word.lean ====
section
/-! DEFINITION. The word types of the IRWE-1 block and the Pulse of 00_scope.md R14.

All values of the block are unsigned (R9); a duration is a 32-bit number of microseconds (R7, `P_TIME_BITS` = 32). -/

namespace Sys2Proof

/-- A 32-bit register value, bus word or command word (R22, R62, R80). -/
abbrev Word := BitVec 32

/-- A byte lane of a bus word (R63). -/
abbrev Byte := BitVec 8

/-- A 64-bit field value: HDR, FTR or a key code (R30, R35). -/
abbrev DWord := BitVec 64

/-- A Pulse or symbol: the pair (on, off) of durations in microseconds (R13, R14). -/
structure Pulse where
  on : Word
  off : Word
  deriving DecidableEq, Repr

end Sys2Proof
end

