-- ==== Sys2Proof/Config.lean ====
section
/-! DEFINITION. What one build of the block fixes (the parameters of 00_scope.md R7) and the model's free values.

`Params` holds the parameters the spec lets a model take as an argument; a State carries them, no step changes them.
`P_BASE` is an argument of `Machine.windowOffset`; `P_LATENCY` is the schedule held in `State.port`. -/

namespace Sys2Proof

/-- `P_ROUND_TIE` (R7): how a tie of `round` is broken (R142). -/
inductive Tie where
  | halfUp
  | halfEven
  deriving DecidableEq, Repr

/-- The parameters of R7 that have a range. -/
structure Params where
  /-- `P_ROUND_TIE` -/
  roundTie : Tie
  /-- `P_START_MODULATED` -/
  startModulated : Bool
  /-- `P_N_KEYS`, 1 to 256 -/
  nKeys : Nat
  /-- `P_PULSE_CAP`, 1 to 8192 -/
  pulseCap : Nat
  deriving DecidableEq, Repr

/-- The spec's own values of the parameters (R7). -/
def Params.spec : Params :=
  { roundTie := .halfUp, startModulated := true, nKeys := 256, pulseCap := 8192 }

/-- The ranges of R7. -/
abbrev Params.wf (p : Params) : Prop :=
  1 ≤ p.nKeys ∧ p.nKeys ≤ 256 ∧ 1 ≤ p.pulseCap ∧ p.pulseCap ≤ 8192

/-- `P_FREQ_KHZ`, fixed by the source (R7, R141). -/
def Config.freqKhz : Nat := 38

/-- `P_MAX_WIDTH`, fixed (R7). -/
def Config.maxWidth : Nat := 64

/-- The size of the window in bytes, 128 KiB (R22); `P_BASE` is a multiple of it (R61). -/
def Config.windowSize : Nat := 0x20000

/-- FREE VALUE (log entry 2). The word that draw number `d` gives for the register at window offset `a`, wherever
the spec says "any value" or "unspecified": a read of PULSE_COUNT or of the pulse window while BUSY = 1 (R203),
a key code word after reset (R35), a PB entry after reset or after an error (R36, R172). It has no body:
nothing constrains it. `State.draws` numbers the draws, so two draws are independent. -/
opaque Config.freeWord : Nat → Nat → Word

end Sys2Proof
end

