-- ==== Sys2Proof/Syntax.lean ====
section
/-! DEFINITION. The commands of the block: one constructor per row of spec/opcode_table.json (30_encoding.md R83). -/

namespace Sys2Proof

/-- The six commands (R83, R162). `k` is the key index of R82. -/
inductive Instr where
  | nop
  | clear
  | frame (k : Nat)
  | gen (k : Nat)
  | synth
  | expand
  deriving DecidableEq, Repr

end Sys2Proof
end

