-- ==== Sys2Proof/WellFormed.lean ====
section
/-! DEFINITION. Which commands a command word can express. -/

namespace Sys2Proof

/-- The key index is an unsigned integer 0 to 255, the KEY field of eight bits (R81, R82).
An index at or above `P_N_KEYS` is well formed: it decodes normally and fails at execution (R82). -/
def Instr.WellFormed : Instr → Bool
  | .nop => true
  | .clear => true
  | .frame k => decide (k < 256)
  | .gen k => decide (k < 256)
  | .synth => true
  | .expand => true

end Sys2Proof
end

