-- ==== Sys2Proof/Decode.lean ====
section
/-! DEFINITION. The decoder of 30_encoding.md R84, total on any word and on any bytes, then the encoder of R83. -/

namespace Sys2Proof

/-- Why a word is illegal (R84, R85). -/
inductive Illegal where
  /-- OP is above 0x05. -/
  | undefinedOpcode
  /-- RSV is not 0. -/
  | reservedNotZero
  /-- KEY is not 0 for NOP, CLEAR, SYNTH or EXPAND. -/
  | keyNotTaken
  deriving DecidableEq, Repr

/-- The argument of `Illegal(i)` in R84: 1 for an undefined opcode, 2 for the other two. -/
def Illegal.number : Illegal → Nat
  | .undefinedOpcode => 1
  | .reservedNotZero => 2
  | .keyNotTaken => 2

/-- OP, bits [7:0] of the command word (R81). -/
def opField (w : Word) : BitVec 8 := w.extractLsb' 0 8

/-- KEY, bits [15:8] of the command word (R81). -/
def keyField (w : Word) : BitVec 8 := w.extractLsb' 8 8

/-- RSV, bits [31:16] of the command word (R81). -/
def rsvField (w : Word) : BitVec 16 := w.extractLsb' 16 16

/-- `Decode(w)` of R84, with its three tests in the order given there. -/
def decode (w : Word) : Except Illegal Instr :=
  let op := opField w
  if 0x05#8 < op then .error .undefinedOpcode
  else if rsvField w ≠ 0 then .error .reservedNotZero
  else if (op = 0x00 ∨ op = 0x01 ∨ op = 0x04 ∨ op = 0x05) ∧ keyField w ≠ 0 then .error .keyNotTaken
  else if op = 0x00 then .ok .nop
  else if op = 0x01 then .ok .clear
  else if op = 0x02 then .ok (.frame (keyField w).toNat)
  else if op = 0x03 then .ok (.gen (keyField w).toNat)
  else if op = 0x04 then .ok .synth
  else .ok .expand

/-- Byte lane j carries bits [8j+7:8j] (R63): the word whose lanes 0 to 3 are the four bytes. -/
def wordOfLanes (b0 b1 b2 b3 : Byte) : Word := b3 ++ b2 ++ b1 ++ b0

/-- The four byte lanes of a word, lane 0 first (R63). -/
def lanesOfWord (w : Word) : List Byte :=
  [w.extractLsb' 0 8, w.extractLsb' 8 8, w.extractLsb' 16 8, w.extractLsb' 24 8]

/-- Why bytes give no command. -/
inductive DecodeError where
  /-- Fewer than four bytes: no other length than 32 bits exists (R80). -/
  | tooShort
  /-- The word is illegal (R84). -/
  | illegal (r : Illegal)
  deriving DecidableEq, Repr

/-- The command in the first four byte lanes, and the bytes after it. -/
def decodeBytes : List Byte → Except DecodeError (Instr × List Byte)
  | b0 :: b1 :: b2 :: b3 :: rest =>
    match decode (wordOfLanes b0 b1 b2 b3) with
    | .ok i => .ok (i, rest)
    | .error r => .error (.illegal r)
  | _ => .error .tooShort

/-- The command whose `nbits` bits are `w`, numbered as spec/opcode_table.json numbers them (bit 0 the least significant). -/
def decodeTableWord (nbits w : Nat) : Option Instr :=
  if nbits ≤ 32 then
    match decodeBytes (lanesOfWord (BitVec.ofNat 32 (w % 2 ^ nbits))) with
    | .ok (i, []) => some i
    | .ok (_, _ :: _) => none
    | .error _ => none
  else none

/-- The opcode of R83. -/
def Instr.opcode : Instr → BitVec 8
  | .nop => 0x00
  | .clear => 0x01
  | .frame _ => 0x02
  | .gen _ => 0x03
  | .synth => 0x04
  | .expand => 0x05

/-- The KEY field a command is written with: its index, or 0 where none is taken (R81, R83). -/
def Instr.key : Instr → Nat
  | .nop => 0
  | .clear => 0
  | .frame k => k
  | .gen k => k
  | .synth => 0
  | .expand => 0

/-- The command word `0000000000000000 KKKKKKKK OOOOOOOO` of R81, that is `match | (k << 8)` (R87). -/
def encode (i : Instr) : Word := 0#16 ++ BitVec.ofNat 8 i.key ++ i.opcode

/-- The command word's four byte lanes (R63). -/
def encodeBytes (i : Instr) : List Byte := lanesOfWord (encode i)

/-- A row of the opcode map (R83). -/
structure OpcodeRow where
  mnemonic : String
  pattern : Word
  mask : Word
  deriving DecidableEq, Repr

/-- The opcode map of R83, row by row. -/
def opcodeRows : List OpcodeRow :=
  [ { mnemonic := "NOP", pattern := 0x00000000, mask := 0xFFFFFFFF }
  , { mnemonic := "CLEAR", pattern := 0x00000001, mask := 0xFFFFFFFF }
  , { mnemonic := "FRAME", pattern := 0x00000002, mask := 0xFFFF00FF }
  , { mnemonic := "GEN", pattern := 0x00000003, mask := 0xFFFF00FF }
  , { mnemonic := "SYNTH", pattern := 0x00000004, mask := 0xFFFFFFFF }
  , { mnemonic := "EXPAND", pattern := 0x00000005, mask := 0xFFFFFFFF } ]

/-- "A word w selects a row when `(w & mask) == match`" (R83). -/
def OpcodeRow.selects (r : OpcodeRow) (w : Word) : Bool := w &&& r.mask == r.pattern

/-- The mnemonic of R83 and R87. -/
def Instr.mnemonic : Instr → String
  | .nop => "NOP"
  | .clear => "CLEAR"
  | .frame _ => "FRAME"
  | .gen _ => "GEN"
  | .synth => "SYNTH"
  | .expand => "EXPAND"

end Sys2Proof
end

