-- ==== Sys2Proof/Machine/State.lean ====
section
/-! DEFINITION. The state of the block (10_state.md), its reset value (R41), and why a step can stop.

Every piece of state is plain data. The block's own state is `params` to `pbDraw`; `port`, `replies` and `draws` are
the model's own fields: the pending inputs of the host interface, what the host has read, and the number of the next
free value. -/

namespace Sys2Proof.Machine

open Sys2Proof

/-- There is no fault: the block has no traps and raises no access fault (20_memory.md R68, 60_exceptions.md R177);
an error of a command is a next state (R172). -/
inductive Fault where
  deriving DecidableEq, Repr

/-- Why a step has no meaning. -/
inductive Refusal where
  /-- Raised by an arm of `exec` that has no meaning yet: none. Safe. -/
  | notModelled (mnemonic : String)
  /-- Raised by a host access of `bytes` bytes at window offset `off` that is not an aligned 32-bit access inside the
  128 KiB window: "outside the interface: a model refuses it" (R62). Safe. -/
  | accessOutsideInterface (off bytes : Nat)
  deriving DecidableEq, Repr

/-- One input of the block, in the order the platform delivers them (R69). -/
inductive PortEvent where
  /-- `MemRead(off, bytes)` by a host (R66). -/
  | read (off bytes : Nat)
  /-- `MemWrite(off, bytes, v)` by a host (R67). -/
  | write (off bytes : Nat) (v : Word)
  /-- The engine takes its step here, between two host accesses, if it is enabled (R69, R200, R201). -/
  | engine
  /-- The platform puts the reset input at this level: it asserts it (true) or releases it (false) (R190). -/
  | reset (asserted : Bool)
  deriving DecidableEq, Repr

/-- The stored bits of PRESENT, bits 0 to 5 in order (R26). -/
structure Present where
  startEn : Bool
  stopEn : Bool
  zeroValid : Bool
  oneValid : Bool
  hdrEn : Bool
  ftrEn : Bool
  deriving DecidableEq, Repr

/-- The stored fields of PCFG (R27). -/
structure Pcfg where
  /-- bit 0: 0 = MSB first, 1 = LSB first -/
  firstBit : Bool
  /-- bits [15:8] -/
  hdrSize : BitVec 8
  /-- bits [23:16] -/
  dataSize : BitVec 8
  /-- bits [31:24] -/
  ftrSize : BitVec 8
  deriving DecidableEq, Repr

/-- The registers a host writes and the engine only reads: descriptor and operand registers (R26 to R31). -/
structure Regs where
  present : Present
  pcfg : Pcfg
  gap : Word
  /-- START_ON, START_OFF -/
  start : Pulse
  /-- STOP_ON, STOP_OFF -/
  stop : Pulse
  /-- ZERO_ON, ZERO_OFF -/
  zero : Pulse
  /-- ONE_ON, ONE_OFF -/
  one : Pulse
  hdrLo : Word
  hdrHi : Word
  ftrLo : Word
  ftrHi : Word
  argOn : Word
  argOff : Word
  deriving DecidableEq, Repr

/-- One entry of the key table (R35). -/
structure KeyEntry where
  /-- KFLAGS(k) bit 0 -/
  valid : Bool
  /-- KVAL_LO(k) -/
  lo : Word
  /-- KVAL_HI(k) -/
  hi : Word
  deriving DecidableEq, Repr

/-- The state of the machine. -/
structure State where
  /-- the build's parameters; PULSE_CAP, KEY_COUNT and CARRIER read them (R7, R33) -/
  params : Params
  /-- the level of the reset input: the platform holds it asserted (R190) -/
  inReset : Bool
  /-- STATUS.BUSY (R24) -/
  busy : Bool
  /-- STATUS.HAZ (R24) -/
  haz : Bool
  /-- STATUS.ERR (R24, R170) -/
  err : BitVec 4
  /-- ERRINFO bits [7:0] (R25) -/
  errInfo : BitVec 8
  /-- LATCH (R37) -/
  latch : Word
  /-- descriptor and operand registers (R26 to R31) -/
  regs : Regs
  /-- the key table, entry k at index k, `P_N_KEYS` entries (R35) -/
  keys : List KeyEntry
  /-- PULSE_COUNT (R32) -/
  pulseCount : Word
  /-- the entries of PB that hold a known value: PB[0], PB[1], ... in order (R36); every later entry is unspecified and
  holds the free value of draw `pbDraw` -/
  pb : List Pulse
  /-- the draw of the unspecified PB entries -/
  pbDraw : Nat
  /-- inputs not yet taken, oldest first (R69) -/
  port : List PortEvent
  /-- the values returned to the host's reads, oldest first (R66) -/
  replies : List Word
  /-- the number of the next draw of a free value -/
  draws : Nat
  deriving DecidableEq, Repr

/-- All descriptor and operand registers at 0 (R41). -/
def Regs.zeros : Regs :=
  { present := { startEn := false, stopEn := false, zeroValid := false, oneValid := false, hdrEn := false, ftrEn := false }
    pcfg := { firstBit := false, hdrSize := 0, dataSize := 0, ftrSize := 0 }
    gap := 0
    start := { on := 0, off := 0 }
    stop := { on := 0, off := 0 }
    zero := { on := 0, off := 0 }
    one := { on := 0, off := 0 }
    hdrLo := 0
    hdrHi := 0
    ftrLo := 0
    ftrHi := 0
    argOn := 0
    argOff := 0 }

/-- Entry k after the reset whose draw is `d`: not VALID, and its code words unspecified (R35, R41): the free values of
the registers at 0x1004 + 16k and 0x1008 + 16k. -/
def resetKey (d k : Nat) : KeyEntry :=
  { valid := false, lo := Config.freeWord d (0x1004 + 16 * k), hi := Config.freeWord d (0x1008 + 16 * k) }

/-- The `n` entries from index `k` on, after the reset whose draw is `d`. -/
def resetKeys (d : Nat) : Nat → Nat → List KeyEntry
  | 0, _ => []
  | n + 1, k => resetKey d k :: resetKeys d n (k + 1)

/-- The block with parameters `p` right after the reset whose draw is `d` (R41, R190), the reset input released. -/
def State.resetWith (p : Params) (d : Nat) : State :=
  { params := p
    inReset := false
    busy := false
    haz := false
    err := 0
    errInfo := 0
    latch := 0
    regs := Regs.zeros
    keys := resetKeys d p.nKeys 0
    pulseCount := 0
    pb := []
    pbDraw := d
    port := []
    replies := []
    draws := d + 1 }

/-- The machine right after reset: the spec's parameters, the reset input released, no input pending, nothing read. -/
def State.reset : State := State.resetWith Params.spec 0

end Sys2Proof.Machine
end

