-- ==== Sys2Proof/Machine/Flags.lean ====
section
/-! DEFINITION. Errors and their codes (60_exceptions.md R170, R171), and the register words made of flags and fields:
STATUS, ERRINFO, PRESENT and PCFG (10_state.md R24 to R27). -/

namespace Sys2Proof.Machine

open Sys2Proof

/-- Why a command fails: one constructor per row of R171. -/
inductive Cause where
  /-- k ≥ `P_N_KEYS`, or KEY[k].VALID = 0 -/
  | keyNotFound (k : Nat)
  /-- PRESENT.HDR_EN = 1 and HDR ≥ 2^HDR_SIZE -/
  | headerTooWide
  /-- KEY[k].VAL ≥ 2^DATA_SIZE -/
  | keyCodeTooWide
  /-- PRESENT.FTR_EN = 1 and FTR ≥ 2^FTR_SIZE -/
  | footerTooWide
  /-- a carrier off value would be negative (unreachable at 38 kHz, R146) -/
  | negativeCarrierOff
  /-- PRESENT.ZERO_VALID = 0 -/
  | zeroPairMissing
  /-- PRESENT.ONE_VALID = 0 -/
  | onePairMissing
  /-- HDR_SIZE > 64 -/
  | hdrSizeInvalid
  /-- DATA_SIZE > 64 -/
  | dataSizeInvalid
  /-- FTR_SIZE > 64 -/
  | ftrSizeInvalid
  /-- the output would have more than `P_PULSE_CAP` Pulses -/
  | outputTooLong
  /-- the latched word is illegal (R84) -/
  | illegal (r : Illegal)
  deriving DecidableEq, Repr

/-- The code written to STATUS.ERR (R170, R171). -/
def Cause.code : Cause → BitVec 4
  | .keyNotFound _ => 1
  | .headerTooWide => 2
  | .keyCodeTooWide => 2
  | .footerTooWide => 2
  | .negativeCarrierOff => 2
  | .zeroPairMissing => 3
  | .onePairMissing => 3
  | .hdrSizeInvalid => 3
  | .dataSizeInvalid => 3
  | .ftrSizeInvalid => 3
  | .outputTooLong => 4
  | .illegal _ => 5

/-- The information word written to ERRINFO (R171). -/
def Cause.info : Cause → BitVec 8
  | .keyNotFound k => BitVec.ofNat 8 k
  | .headerTooWide => 1
  | .keyCodeTooWide => 2
  | .footerTooWide => 3
  | .negativeCarrierOff => 4
  | .zeroPairMissing => 1
  | .onePairMissing => 2
  | .hdrSizeInvalid => 3
  | .dataSizeInvalid => 4
  | .ftrSizeInvalid => 5
  | .outputTooLong => 0
  | .illegal r => BitVec.ofNat 8 r.number

/-- STATUS as it reads: BUSY at bit 0, HAZ at bit 1, ERR at bits [11:8], every other bit 0 (R24). -/
def statusWord (s : State) : Word :=
  0#20 ++ s.err ++ 0#6 ++ BitVec.ofBool s.haz ++ BitVec.ofBool s.busy

/-- ERRINFO as it reads: bits [31:8] read 0 (R25). -/
def errInfoWord (s : State) : Word := 0#24 ++ s.errInfo

/-- PRESENT as it reads: bits [31:6] read 0 (R26). -/
def Present.toWord (p : Present) : Word :=
  0#26 ++ BitVec.ofBool p.ftrEn ++ BitVec.ofBool p.hdrEn ++ BitVec.ofBool p.oneValid ++ BitVec.ofBool p.zeroValid ++
    BitVec.ofBool p.stopEn ++ BitVec.ofBool p.startEn

/-- What a write of v to PRESENT stores: v[5:0] (R26). -/
def Present.ofWord (v : Word) : Present :=
  { startEn := v.getLsbD 0
    stopEn := v.getLsbD 1
    zeroValid := v.getLsbD 2
    oneValid := v.getLsbD 3
    hdrEn := v.getLsbD 4
    ftrEn := v.getLsbD 5 }

/-- PCFG as it reads: bits [7:1] read 0 (R27). -/
def Pcfg.toWord (c : Pcfg) : Word :=
  c.ftrSize ++ c.dataSize ++ c.hdrSize ++ 0#7 ++ BitVec.ofBool c.firstBit

/-- What a write of v to PCFG stores: v[31:8] and v[0]; no size is checked (R27, R40). -/
def Pcfg.ofWord (v : Word) : Pcfg :=
  { firstBit := v.getLsbD 0
    hdrSize := v.extractLsb' 8 8
    dataSize := v.extractLsb' 16 8
    ftrSize := v.extractLsb' 24 8 }

end Sys2Proof.Machine
end

