-- ==== Sys2Proof/Machine/Ops.lean ====
section
/-! DEFINITION. The named operations over the state: one update per group of fields, the key table and the pulse buffer,
and the two ways a command ends (60_exceptions.md R172, R173). The block has no return from an error (R178). -/

namespace Sys2Proof.Machine

open Sys2Proof

/-- Replace the pending inputs. -/
def State.setPort (s : State) (p : List PortEvent) : State := { s with port := p }

/-- Write STATUS.BUSY. -/
def State.setBusy (s : State) (b : Bool) : State := { s with busy := b }

/-- Write STATUS.HAZ. -/
def State.setHaz (s : State) (b : Bool) : State := { s with haz := b }

/-- Write LATCH. -/
def State.setLatch (s : State) (w : Word) : State := { s with latch := w }

/-- Write the descriptor and operand registers. -/
def State.setRegs (s : State) (r : Regs) : State := { s with regs := r }

/-- Write the key table. -/
def State.setKeys (s : State) (ks : List KeyEntry) : State := { s with keys := ks }

/-- Write STATUS.ERR and ERRINFO together (R25). -/
def State.setResult (s : State) (code : BitVec 4) (info : BitVec 8) : State := { s with err := code, errInfo := info }

/-- Write PULSE_COUNT. -/
def State.setCount (s : State) (n : Word) : State := { s with pulseCount := n }

/-- Return v to the host's read (R66). -/
def State.reply (s : State) (v : Word) : State := { s with replies := s.replies ++ [v] }

/-- One draw of a free value has been used. -/
def State.drawn (s : State) : State := { s with draws := s.draws + 1 }

/-- Key-table entry k (R35); an index past the table has no entry and reads as not VALID. -/
def State.keyAt (s : State) (k : Nat) : KeyEntry := s.keys.getD k { valid := false, lo := 0, hi := 0 }

/-- Overwrite key-table entry k; the other entries keep their values (R35, R194). -/
def State.setKey (s : State) (k : Nat) (e : KeyEntry) : State := s.setKeys (s.keys.set k e)

/-- PB[i] (R36): the value stored there, or the free value of an unspecified entry. -/
def State.pbAt (s : State) (i : Nat) : Pulse :=
  s.pb.getD i { on := Config.freeWord s.pbDraw (0x10000 + 8 * i), off := Config.freeWord s.pbDraw (0x10004 + 8 * i) }

/-- `for i in 0 .. n-1: PB[i] <- seq[i]` (R173); entries at n and above keep their values. -/
def State.storePulses (s : State) (seq : List Pulse) : State := { s with pb := seq ++ s.pb.drop seq.length }

/-- Every PB entry becomes unspecified (R172): a new draw. -/
def State.dropPulses (s : State) : State := { s with pb := [], pbDraw := s.draws, draws := s.draws + 1 }

/-- `raise Err(code, info)` (R172): the error outcome of a command. BUSY is cleared by the engine step (R200). -/
def State.raiseErr (s : State) (c : Cause) : State := (s.dropPulses.setCount 0).setResult c.code c.info

/-- `Complete(seq)` (R173): the success outcome, or CAPACITY when the output is longer than `P_PULSE_CAP`. -/
def State.complete (s : State) (seq : List Pulse) : State :=
  if s.params.pulseCap < seq.length then s.raiseErr .outputTooLong
  else ((s.storePulses seq).setCount (BitVec.ofNat 32 seq.length)).setResult 0 0

/-- End a command whose pseudocode gives a sequence or raises an error. -/
def State.finish (s : State) : Except Cause (List Pulse) → State
  | .error c => s.raiseErr c
  | .ok seq => s.complete seq

/-- `finish` for an output known to have `n` Pulses: CAPACITY is tested before the sequence is built, as R173 allows
("a model may compute n from the symbols alone … and test CAPACITY before it builds the sequence, with the same outcome"). -/
def State.finishSized (s : State) (n : Nat) (seq : Unit → Except Cause (List Pulse)) : State :=
  if s.params.pulseCap < n then s.raiseErr .outputTooLong else s.finish (seq ())

end Sys2Proof.Machine
end

