-- ==== Sys2Proof/Machine/Operands.lean ====
section
/-! DEFINITION. The operands of the commands: field values, widths and bit order (40_bitfields.md), the frame's checks
and its symbols (41_frame.md R120, R123). -/

namespace Sys2Proof.Machine

open Sys2Proof

/-- A 64-bit value in two registers, the HI word above the LO word (R30, R35, R63). -/
def joinHalves (hi lo : Word) : DWord := hi ++ lo

/-- HDR (R30). -/
def Regs.hdr (r : Regs) : DWord := joinHalves r.hdrHi r.hdrLo

/-- FTR (R30). -/
def Regs.ftr (r : Regs) : DWord := joinHalves r.ftrHi r.ftrLo

/-- KEY[k].VAL (R35). -/
def KeyEntry.val (e : KeyEntry) : DWord := joinHalves e.hi e.lo

/-- `Fits(v, W)` (R103). -/
def fits (v : DWord) (W : Nat) : Bool := decide (v.toNat < 2 ^ W)

/-- `BitList(v, W)` (R104): the W low bits of v, most significant first. -/
def bitList (v : DWord) : Nat → List Bool
  | 0 => []
  | W + 1 => v.getLsbD W :: bitList v W

/-- `TxBits(v, W)` (R105), `first` being PCFG.FIRSTBIT. -/
def txBits (first : Bool) (v : DWord) (W : Nat) : List Bool :=
  if first then (bitList v W).reverse else bitList v W

/-- `BitPair(b)` (R107). -/
def bitPair (r : Regs) (b : Bool) : Pulse := if b then r.one else r.zero

/-- `FieldSymbols(v, W)` (R108). -/
def fieldSymbols (r : Regs) (v : DWord) (W : Nat) : List Pulse := (txBits r.pcfg.firstBit v W).map (bitPair r)

/-- The check of KEY_NOT_FOUND (R123): k is at or above `P_N_KEYS`, or the key is not defined. -/
def State.keyMissing (s : State) (k : Nat) : Bool := decide (s.params.nKeys ≤ k) || !(s.keyAt k).valid

/-- `CheckFrame(k)` (R123): the first failing check, in the order given there; `none` when every check passes. -/
def checkFrame (k : Nat) (s : State) : Option Cause :=
  if s.regs.present.zeroValid = false then some .zeroPairMissing
  else if s.regs.present.oneValid = false then some .onePairMissing
  else if Config.maxWidth < s.regs.pcfg.hdrSize.toNat then some .hdrSizeInvalid
  else if Config.maxWidth < s.regs.pcfg.dataSize.toNat then some .dataSizeInvalid
  else if Config.maxWidth < s.regs.pcfg.ftrSize.toNat then some .ftrSizeInvalid
  else if s.regs.present.hdrEn = true ∧ fits s.regs.hdr s.regs.pcfg.hdrSize.toNat = false then some .headerTooWide
  else if s.keyMissing k = true then some (.keyNotFound k)
  else if fits (s.keyAt k).val s.regs.pcfg.dataSize.toNat = false then some .keyCodeTooWide
  else if s.regs.present.ftrEn = true ∧ fits s.regs.ftr s.regs.pcfg.ftrSize.toNat = false then some .footerTooWide
  else none

/-- Step 1 of `Symbols(k)` (R120, R122): the start pair, or nothing. -/
def startSymbols (r : Regs) : List Pulse := if r.present.startEn then [r.start] else []

/-- Step 2 of `Symbols(k)` (R120): the header's symbols, or nothing. -/
def headerSymbols (r : Regs) : List Pulse :=
  if r.present.hdrEn then fieldSymbols r r.hdr r.pcfg.hdrSize.toNat else []

/-- Steps 3 and 4 of `Symbols(k)` (R120): the data field's symbols. -/
def dataSymbols (k : Nat) (s : State) : List Pulse :=
  fieldSymbols s.regs (s.keyAt k).val s.regs.pcfg.dataSize.toNat

/-- Step 5 of `Symbols(k)` (R120): the footer's symbols, or nothing. -/
def footerSymbols (r : Regs) : List Pulse :=
  if r.present.ftrEn then fieldSymbols r r.ftr r.pcfg.ftrSize.toNat else []

/-- `Symbols(k)` (R120): start, header, data, footer. -/
def symbols (k : Nat) (s : State) : List Pulse :=
  startSymbols s.regs ++ headerSymbols s.regs ++ dataSymbols k s ++ footerSymbols s.regs

end Sys2Proof.Machine
end

