-- ==== Sys2Proof/Machine/Synth.lean ====
section
/-! DEFINITION. The carrier synthesizer (42_carrier.md): exact rounding, the cycle count, the accumulate-and-correct loop,
the expansion of one symbol and of a frame. A rational is given by its numerator and denominator, so no number is
ever rounded but by `roundRat` (R10, R142). -/

namespace Sys2Proof.Machine

open Sys2Proof

/-- `round(num / den)` (R142), for den > 0. -/
def roundRat (tie : Tie) (num den : Nat) : Nat :=
  let n := num / den
  let r := num % den
  if den < 2 * r then n + 1
  else if 2 * r < den then n
  else match tie with
    | .halfUp => n + 1
    | .halfEven => if n % 2 = 0 then n else n + 1

/-- `CARRIER_ON = round(CYCLE / 3)` (R8, R141), with `CYCLE = 1000 / P_FREQ_KHZ`. -/
def carrierOn (tie : Tie) : Nat := roundRat tie 1000 (3 * Config.freqKhz)

/-- `T(m) = round(m · CYCLE)` (R143, R146). -/
def cycleEnd (tie : Tie) (m : Nat) : Nat := roundRat tie (m * 1000) Config.freqKhz

/-- `Cycles(on) = round(on / CYCLE)` (R144). -/
def cycles (tie : Tie) (on : Nat) : Nat := roundRat tie (Config.freqKhz * on) 1000

/-- The sub-pulse `(CARRIER_ON, off)` of one carrier cycle (R143). -/
def subPulse (tie : Tie) (off : Nat) : Pulse :=
  { on := BitVec.ofNat 32 (carrierOn tie), off := BitVec.ofNat 32 off }

/-- The loop of `Synth` (R143) with `n` cycles to go, from cycle index `c` and the accumulator at `sofar`. -/
def synthLoop (tie : Tie) : Nat → Nat → Nat → Except Cause (List Pulse)
  | 0, _, _ => .ok []
  | n + 1, c, sofar =>
    let target := cycleEnd tie (c + 1)
    let sofar := sofar + carrierOn tie
    if target < sofar then .error .negativeCarrierOff
    else
      let off := target - sofar
      match synthLoop tie n (c + 1) (sofar + off) with
      | .error e => .error e
      | .ok out => .ok (subPulse tie off :: out)

/-- `Synth(on)` (R143); the accumulator starts at 0 for every call (R147). -/
def synth (tie : Tie) (on : Word) : Except Cause (List Pulse) := synthLoop tie (cycles tie on.toNat) 0 0

/-- The space Pulse `(0, offTime)`, its off copied without rounding (R145). -/
def spacePulse (off : Word) : Pulse := { on := 0, off := off }

/-- `ExpandSym(on, off)` (R145). -/
def expandSym (tie : Tie) (p : Pulse) : Except Cause (List Pulse) :=
  match synth tie p.on with
  | .error e => .error e
  | .ok out => .ok (out ++ [spacePulse p.off])

/-- Whether GEN passes symbol `j` through instead of expanding it (R126): the start pair, when `P_START_MODULATED` is false. -/
def passedThrough (p : Params) (startEn : Bool) (j : Nat) : Bool := j == 0 && startEn && !p.startModulated

/-- The loop of GEN (R126) over the symbols from index `j` on. -/
def genLoop (p : Params) (startEn : Bool) : Nat → List Pulse → Except Cause (List Pulse)
  | _, [] => .ok []
  | j, sym :: rest =>
    match (if passedThrough p startEn j then .ok [sym] else expandSym p.roundTie sym) with
    | .error e => .error e
    | .ok out =>
      match genLoop p startEn (j + 1) rest with
      | .error e => .error e
      | .ok more => .ok (out ++ more)

/-- The number of Pulses `genLoop` gives (R126, R173): `Cycles(on) + 1` for an expanded symbol, 1 for one passed through. -/
def genCount (p : Params) (startEn : Bool) : Nat → List Pulse → Nat
  | _, [] => 0
  | j, sym :: rest =>
    (if passedThrough p startEn j then 1 else cycles p.roundTie sym.on.toNat + 1) + genCount p startEn (j + 1) rest

/-- CARRIER as it reads (R33): the frequency, CARRIER_ON, the tie rule and the start rule. -/
def carrierWord (p : Params) : Word :=
  0#14 ++ BitVec.ofBool p.startModulated ++ BitVec.ofBool (decide (p.roundTie = .halfEven)) ++
    BitVec.ofNat 8 (carrierOn p.roundTie) ++ BitVec.ofNat 8 Config.freqKhz

end Sys2Proof.Machine
end

