-- ==== Sys2Proof/Machine/RegMap.lean ====
section
/-! DEFINITION. The register map (10_state.md R22): which register a window offset names, what it reads as, what a write
stores there. -/

namespace Sys2Proof.Machine

open Sys2Proof

/-- The registers of the map (R22). -/
inductive Reg where
  | cmd
  | status
  | errInfo
  | present
  | pcfg
  | gap
  | startOn
  | startOff
  | stopOn
  | stopOff
  | zeroOn
  | zeroOff
  | oneOn
  | oneOff
  | hdrLo
  | hdrHi
  | ftrLo
  | ftrHi
  | argOn
  | argOff
  | pulseCount
  | pulseCap
  | keyCount
  | carrier
  | kflags (k : Nat)
  | kvalLo (k : Nat)
  | kvalHi (k : Nat)
  | pon (i : Nat)
  | poff (i : Nat)
  | reserved
  deriving DecidableEq, Repr

/-- The rows of R22 below 0x1000 that name a register; every other offset there is reserved. -/
def controlMap : List (Nat × Reg) :=
  [ (0x000, .cmd), (0x004, .status), (0x008, .errInfo)
  , (0x010, .present), (0x014, .pcfg), (0x018, .gap)
  , (0x020, .startOn), (0x024, .startOff), (0x028, .stopOn), (0x02C, .stopOff)
  , (0x030, .zeroOn), (0x034, .zeroOff), (0x038, .oneOn), (0x03C, .oneOff)
  , (0x040, .hdrLo), (0x044, .hdrHi), (0x048, .ftrLo), (0x04C, .ftrHi)
  , (0x050, .argOn), (0x054, .argOff)
  , (0x058, .pulseCount), (0x05C, .pulseCap), (0x060, .keyCount), (0x064, .carrier) ]

/-- The word of key-table entry k at byte `m` of its 16 (R35). -/
def keyReg (k m : Nat) : Reg :=
  if m = 0x0 then .kflags k
  else if m = 0x4 then .kvalLo k
  else if m = 0x8 then .kvalHi k
  else .reserved

/-- The register at window offset `a`, a multiple of 4 (R22, R61). -/
def regAt (p : Params) (a : Nat) : Reg :=
  if a < 0x1000 then (controlMap.lookup a).getD .reserved
  else if a < 0x1000 + 16 * p.nKeys then keyReg ((a - 0x1000) / 16) (a % 16)
  else if a < 0x10000 then .reserved
  else if a < 0x10000 + 8 * p.pulseCap then
    if a % 8 = 0 then .pon ((a - 0x10000) / 8) else .poff ((a - 0x10000) / 8)
  else .reserved

/-- The registers whose reads return any value while BUSY = 1 (R66, R203): PULSE_COUNT and the pulse window's entries. -/
def Reg.hiddenWhileBusy : Reg → Bool
  | .pulseCount => true
  | .pon _ => true
  | .poff _ => true
  | .cmd | .status | .errInfo | .present | .pcfg | .gap => false
  | .startOn | .startOff | .stopOn | .stopOff | .zeroOn | .zeroOff | .oneOn | .oneOff => false
  | .hdrLo | .hdrHi | .ftrLo | .ftrHi | .argOn | .argOff => false
  | .pulseCap | .keyCount | .carrier => false
  | .kflags _ | .kvalLo _ | .kvalHi _ => false
  | .reserved => false

/-- The visible entry i of the pulse window: PB[i] below PULSE_COUNT, else (0, 0) (R36). -/
def State.visiblePulse (s : State) (i : Nat) : Pulse :=
  if i < s.pulseCount.toNat then s.pbAt i else { on := 0, off := 0 }

/-- What a register holds, as it reads when it is not hidden (R66). CMD and reserved offsets read 0 (R23, R34). -/
def State.readReg (s : State) : Reg → Word
  | .cmd => 0
  | .status => statusWord s
  | .errInfo => errInfoWord s
  | .present => s.regs.present.toWord
  | .pcfg => s.regs.pcfg.toWord
  | .gap => s.regs.gap
  | .startOn => s.regs.start.on
  | .startOff => s.regs.start.off
  | .stopOn => s.regs.stop.on
  | .stopOff => s.regs.stop.off
  | .zeroOn => s.regs.zero.on
  | .zeroOff => s.regs.zero.off
  | .oneOn => s.regs.one.on
  | .oneOff => s.regs.one.off
  | .hdrLo => s.regs.hdrLo
  | .hdrHi => s.regs.hdrHi
  | .ftrLo => s.regs.ftrLo
  | .ftrHi => s.regs.ftrHi
  | .argOn => s.regs.argOn
  | .argOff => s.regs.argOff
  | .pulseCount => s.pulseCount
  | .pulseCap => BitVec.ofNat 32 s.params.pulseCap
  | .keyCount => BitVec.ofNat 32 s.params.nKeys
  | .carrier => carrierWord s.params
  | .kflags k => if (s.keyAt k).valid then 1 else 0
  | .kvalLo k => (s.keyAt k).lo
  | .kvalHi k => (s.keyAt k).hi
  | .pon i => (s.visiblePulse i).on
  | .poff i => (s.visiblePulse i).off
  | .reserved => 0

/-- What an accepted write of v to a register other than CMD and STATUS stores (R26 to R35, R67): the register's defined
bits; a read-only register or a reserved offset keeps its value. No write checks a width, a bit or a range (R40). -/
def State.writeReg (s : State) (v : Word) : Reg → State
  | .cmd => s
  | .status => s
  | .errInfo => s
  | .present => s.setRegs { s.regs with present := Present.ofWord v }
  | .pcfg => s.setRegs { s.regs with pcfg := Pcfg.ofWord v }
  | .gap => s.setRegs { s.regs with gap := v }
  | .startOn => s.setRegs { s.regs with start := { s.regs.start with on := v } }
  | .startOff => s.setRegs { s.regs with start := { s.regs.start with off := v } }
  | .stopOn => s.setRegs { s.regs with stop := { s.regs.stop with on := v } }
  | .stopOff => s.setRegs { s.regs with stop := { s.regs.stop with off := v } }
  | .zeroOn => s.setRegs { s.regs with zero := { s.regs.zero with on := v } }
  | .zeroOff => s.setRegs { s.regs with zero := { s.regs.zero with off := v } }
  | .oneOn => s.setRegs { s.regs with one := { s.regs.one with on := v } }
  | .oneOff => s.setRegs { s.regs with one := { s.regs.one with off := v } }
  | .hdrLo => s.setRegs { s.regs with hdrLo := v }
  | .hdrHi => s.setRegs { s.regs with hdrHi := v }
  | .ftrLo => s.setRegs { s.regs with ftrLo := v }
  | .ftrHi => s.setRegs { s.regs with ftrHi := v }
  | .argOn => s.setRegs { s.regs with argOn := v }
  | .argOff => s.setRegs { s.regs with argOff := v }
  | .pulseCount => s
  | .pulseCap => s
  | .keyCount => s
  | .carrier => s
  | .kflags k => s.setKey k { s.keyAt k with valid := v.getLsbD 0 }
  | .kvalLo k => s.setKey k { s.keyAt k with lo := v }
  | .kvalHi k => s.setKey k { s.keyAt k with hi := v }
  | .pon _ => s
  | .poff _ => s
  | .reserved => s

end Sys2Proof.Machine
end

