-- ==== Sys2Proof/Machine/Bus.lean ====
section
/-! DEFINITION. The host's accesses (20_memory.md R62 to R67), the address window (R61) and the reset input
(70_reset_and_hazards.md R190). -/

namespace Sys2Proof.Machine

open Sys2Proof

/-- The accesses the block defines (R62): 32 bits, at a multiple of 4, inside the window. -/
def admitted (off bytes : Nat) : Bool := bytes == 4 && off % 4 == 0 && decide (off < Config.windowSize)

/-- The window offset that a host address selects when the platform puts the window at `base`, its `P_BASE` (R61);
`none` for an address outside the window. -/
def windowOffset (base addr : Nat) : Option Nat :=
  if base ≤ addr ∧ addr < base + Config.windowSize then some (addr - base) else none

/-- `MemRead(a, 4)` (R66): the value returned, and the state, in which only the number of draws can differ (R64). -/
def State.memRead (s : State) (a : Nat) : Word × State :=
  let r := regAt s.params a
  if s.busy && r.hiddenWhileBusy then (Config.freeWord s.draws a, s.drawn) else (s.readReg r, s)

/-- `MemWrite(a, 4, v)` (R67, R202). While the reset input is asserted all state keeps its reset value, so the write does
nothing (R190). Else STATUS is written whether BUSY is 0 or 1; any other write is ignored and sets HAZ
while BUSY = 1; CMD latches a command (R23); every other offset stores its defined bits. -/
def State.memWrite (s : State) (a : Nat) (v : Word) : State :=
  if s.inReset then s
  else if a = 0x004 then (if v.getLsbD 1 then s.setHaz false else s)
  else if s.busy then s.setHaz true
  else if a = 0x000 then (s.setLatch v).setBusy true
  else s.writeReg v (regAt s.params a)

/-- A host read taken from the port: an access that is not admitted is refused (R62), else its value is returned. -/
def State.hostRead (s : State) (off bytes : Nat) : Host.Outcome State Fault Refusal :=
  if admitted off bytes then .next ((s.memRead off).2.reply (s.memRead off).1)
  else .refused (.accessOutsideInterface off bytes)

/-- A host write taken from the port: an access that is not admitted is refused (R62). -/
def State.hostWrite (s : State) (off bytes : Nat) (v : Word) : Host.Outcome State Fault Refusal :=
  if admitted off bytes then .next (s.memWrite off v) else .refused (.accessOutsideInterface off bytes)

/-- The block at its reset values, with the reset input at the given level (R190): a latched command is discarded, and the
unspecified values are drawn anew. The pending inputs and what the host has read are outside the block and stay. -/
def State.resetBlock (s : State) (asserted : Bool) : State :=
  { State.resetWith s.params s.draws with inReset := asserted, port := s.port, replies := s.replies }

/-- The platform puts the reset input at a level (R190): all state takes its reset values when the input is asserted and when
it is released. Releasing an input that is not asserted does nothing. -/
def State.setReset (s : State) (asserted : Bool) : State :=
  if asserted || s.inReset then s.resetBlock asserted else s

end Sys2Proof.Machine
end

