-- ==== Sys2Proof/Machine/Carrier.lean ====
section
/-! DEFINITION. The carrier commands SYNTH and EXPAND (42_carrier.md). -/

namespace Sys2Proof.Machine

open Sys2Proof

/-- SYNTH (R150): the carrier sub-pulses of the on-interval ARG_ON. -/
def execSynth (s : State) : Host.Outcome State Fault Refusal :=
  let tie := s.params.roundTie
  .next (s.finishSized (cycles tie s.regs.argOn.toNat) fun _ => synth tie s.regs.argOn)

/-- EXPAND (R151): the expansion of the bit pair (ARG_ON, ARG_OFF). -/
def execExpand (s : State) : Host.Outcome State Fault Refusal :=
  let tie := s.params.roundTie
  .next (s.finishSized (cycles tie s.regs.argOn.toNat + 1) fun _ =>
    expandSym tie { on := s.regs.argOn, off := s.regs.argOff })

end Sys2Proof.Machine
end

