-- ==== Sys2Proof/Machine/Control.lean ====
section
/-! DEFINITION. The control commands NOP and CLEAR (43_control.md). -/

namespace Sys2Proof.Machine

open Sys2Proof

/-- NOP (R160): ERR and ERRINFO become 0; the previous output stays readable. -/
def execNop (s : State) : Host.Outcome State Fault Refusal := .next (s.setResult 0 0)

/-- CLEAR (R161): PULSE_COUNT, ERR and ERRINFO become 0; the PB entries keep their values. -/
def execClear (s : State) : Host.Outcome State Fault Refusal := .next ((s.setCount 0).setResult 0 0)

end Sys2Proof.Machine
end

