-- ==== Sys2Proof/Machine/Frame.lean ====
section
/-! DEFINITION. The frame commands FRAME and GEN (41_frame.md). -/

namespace Sys2Proof.Machine

open Sys2Proof

/-- FRAME (R125): the frame of key k as symbols. -/
def execFrame (k : Nat) (s : State) : Host.Outcome State Fault Refusal :=
  match checkFrame k s with
  | some c => .next (s.raiseErr c)
  | none => .next (s.complete (symbols k s))

/-- GEN (R126): the frame of key k with every on-portion carrier-expanded. -/
def execGen (k : Nat) (s : State) : Host.Outcome State Fault Refusal :=
  match checkFrame k s with
  | some c => .next (s.raiseErr c)
  | none =>
    let syms := symbols k s
    let startEn := s.regs.present.startEn
    .next (s.finishSized (genCount s.params startEn 0 syms) fun _ => genLoop s.params startEn 0 syms)

end Sys2Proof.Machine
end

