-- ==== Sys2Proof/Machine/Dispatch.lean ====
section
/-! DEFINITION. What each command does: one arm per constructor of Instr. -/

namespace Sys2Proof.Machine

open Sys2Proof

def exec (i : Instr) (s : State) : Host.Outcome State Fault Refusal :=
  match i with
  | .nop => Sys2Proof.Machine.execNop s
  | .clear => Sys2Proof.Machine.execClear s
  | .frame k => Sys2Proof.Machine.execFrame k s
  | .gen k => Sys2Proof.Machine.execGen k s
  | .synth => Sys2Proof.Machine.execSynth s
  | .expand => Sys2Proof.Machine.execExpand s

end Sys2Proof.Machine
end

