-- ==== Sys2Proof/Machine/Engine.lean ====
section
/-! DEFINITION. The engine step (70_reset_and_hazards.md R200) and how one input of the port is taken. -/

namespace Sys2Proof.Machine

open Sys2Proof

/-- `BUSY <- 0`, the end of the engine step (R200), after a command that ended in a next state. -/
def clearBusy : Host.Outcome State Fault Refusal → Host.Outcome State Fault Refusal
  | .next s => .next (s.setBusy false)
  | .fault r => .fault r
  | .refused r => .refused r

/-- `EngineStep` (R200): enabled exactly when BUSY = 1; it performs the latched command whole, or the illegal outcome of
R85, and clears BUSY. While BUSY = 0 the block is idle and nothing changes (R185). -/
def engineStep (s : State) : Host.Outcome State Fault Refusal :=
  if s.busy then
    match decode s.latch with
    | .ok i => clearBusy (exec i s)
    | .error r => clearBusy (.next (s.raiseErr (.illegal r)))
  else .next s

/-- Take one input (R69). -/
def handle (e : PortEvent) (s : State) : Host.Outcome State Fault Refusal :=
  match e with
  | .read off bytes => s.hostRead off bytes
  | .write off bytes v => s.hostWrite off bytes v
  | .engine => engineStep s
  | .reset asserted => .next (s.setReset asserted)

end Sys2Proof.Machine
end

