-- ==== Sys2Proof/Machine/Step.lean ====
section
/-! DEFINITION. One step of the machine: the next input of the port, or, when none is pending, the engine's turn.

`port` is the schedule: it says which host accesses come before the engine step that performs a latched command
(`P_LATENCY`, R201), and every order is some port. The list is finite, so a latched command is performed (R201). -/

namespace Sys2Proof.Machine

open Sys2Proof

/-- One step (R69, R200). -/
def step (s : State) : Host.Outcome State Fault Refusal :=
  match s.port with
  | [] => engineStep s
  | e :: rest => handle e (s.setPort rest)

/-- The state in which the next step performs the command word whose `nbits` bits are `w`: the reset input is released, the
word is in LATCH, BUSY is set (as the CMD write of R23 leaves them), and the engine's turn stands first in the port. -/
def State.withFetchWord (s : State) (nbits w : Nat) : State :=
  { ((s.setLatch (BitVec.ofNat 32 (w % 2 ^ nbits))).setBusy true).setPort (.engine :: s.port) with inReset := false }

end Sys2Proof.Machine
end

