-- ==== Sys2Proof/Machine/HostForm.lean ====
section
/-! DEFINITION. The host's side of field values (40_bitfields.md R101, R102, R109, R110): the hex form of a stored value
and the value of bits received in transmission order. The block itself never sees either. -/

namespace Sys2Proof.Machine

open Sys2Proof

/-- The integer whose bits, most significant first, are the list (R110). -/
def natOfBits : List Bool → Nat
  | [] => 0
  | b :: bs => (if b then 2 ^ bs.length else 0) + natOfBits bs

/-- `Σ t_i · 2^i`, the value whose bits, least significant first, are the list (R109). -/
def natOfBitsLsb : List Bool → Nat
  | [] => 0
  | b :: bs => (if b then 1 else 0) + 2 * natOfBitsLsb bs

/-- The value a host must write for the bits `t` in transmission order (R109). -/
def storedValue (first : Bool) (t : List Bool) : DWord :=
  BitVec.ofNat 64 (if first then natOfBitsLsb t else natOfBits t)

/-- The `n` low hex digits of v, most significant first, each 0 to 15. -/
def hexDigits (v : Nat) : Nat → List Nat
  | 0 => []
  | n + 1 => v / 16 ^ n % 16 :: hexDigits v n

/-- The hex form of a value of width W: exactly `ceil(W/4)` digits, zero-padded on the left (R102). -/
def hexForm (v W : Nat) : List Nat := hexDigits v ((W + 3) / 4)

/-- The integer that hex digits denote in base 16 (R102). -/
def natOfHex : List Nat → Nat
  | [] => 0
  | d :: ds => d * 16 ^ ds.length + natOfHex ds

end Sys2Proof.Machine
end

