-- ==== Sys2Proof/Machine/HostProgram.lean ====
section
/-! DEFINITION. Host programs as inputs of the port (30_encoding.md R87 to R89): bus operations, commands and the
pseudo-instructions with their expansions. -/

namespace Sys2Proof.Machine.HostProgram

open Sys2Proof Sys2Proof.Machine

/-- A command as R87 writes it, the key index in decimal. -/
def asm : Instr → String
  | .nop => "NOP"
  | .clear => "CLEAR"
  | .frame k => "FRAME " ++ toString k
  | .gen k => "GEN " ++ toString k
  | .synth => "SYNTH"
  | .expand => "EXPAND"

/-- `WR off, v` (R88). -/
def wr (off : Nat) (v : Word) : PortEvent := .write off 4 v

/-- `RD off` (R88). -/
def rd (off : Nat) : PortEvent := .read off 4

/-- `CMD m` (R88): `WR 0x000, w` with w the word of the mnemonic. -/
def cmd (i : Instr) : PortEvent := wr 0x000 (encode i)

/-- `POLL` (R89) in a run where `n` reads of STATUS come before the engine step (R201): the last read finds bit 0 = 0. -/
def poll (n : Nat) : List PortEvent := List.replicate n (rd 0x004) ++ [.engine, rd 0x004]

/-- `RUN m` (R89) in such a run. -/
def run (i : Instr) (n : Nat) : List PortEvent := cmd i :: poll n

/-- The pairs SETPAIR names (R89). -/
inductive PairName where
  | start
  | stop
  | zero
  | one
  deriving DecidableEq, Repr

/-- The offset of the pair's ON register (R89). -/
def PairName.offset : PairName → Nat
  | .start => 0x020
  | .stop => 0x028
  | .zero => 0x030
  | .one => 0x038

/-- `SETPAIR name, on, off` (R89). -/
def setPair (name : PairName) (on off : Word) : List PortEvent := [wr name.offset on, wr (name.offset + 4) off]

/-- `SETKEY k, v` (R89). -/
def setKey (k : Nat) (v : DWord) : List PortEvent :=
  [wr (0x1004 + 16 * k) (v.extractLsb' 0 32), wr (0x1008 + 16 * k) (v.extractLsb' 32 32), wr (0x1000 + 16 * k) 1]

/-- `DELKEY k` (R89). -/
def delKey (k : Nat) : List PortEvent := [wr (0x1000 + 16 * k) 0]

/-- `SETHDR v` (R89). -/
def setHdr (v : DWord) : List PortEvent := [wr 0x040 (v.extractLsb' 0 32), wr 0x044 (v.extractLsb' 32 32)]

/-- `SETFTR v` (R89). -/
def setFtr (v : DWord) : List PortEvent := [wr 0x048 (v.extractLsb' 0 32), wr 0x04C (v.extractLsb' 32 32)]

/-- `SETCFG first, h, d, f` (R89): `(f << 24) | (d << 16) | (h << 8) | first`. -/
def setCfg (first : Bool) (h d f : BitVec 8) : List PortEvent :=
  [wr 0x014 ((f.setWidth 32 <<< 24) ||| (d.setWidth 32 <<< 16) ||| (h.setWidth 32 <<< 8) ||| (BitVec.ofBool first).setWidth 32)]

/-- `CLRHAZ` (R89). -/
def clrHaz : List PortEvent := [wr 0x004 0x2]

end Sys2Proof.Machine.HostProgram
end

