-- ==== Sys2Proof/Safety.lean ====
section
/-! DEFINITION. What the statements call a legal state and a safe run. -/

namespace Sys2Proof.Machine

open Sys2Proof

/-- The two memories of the block (R60) in their one form: the key table has an entry for each of the `P_N_KEYS`
indices (R35), the known PB entries are a prefix of the `P_PULSE_CAP` entries (R36), and every entry below PULSE_COUNT
is known, so that no read finds an unspecified Pulse (R36). -/
abbrev Memory.wf (s : State) : Prop :=
  s.keys.length = s.params.nKeys ∧ s.pb.length ≤ s.params.pulseCap ∧ s.pulseCount.toNat ≤ s.pb.length

/-- The pairs (ERR, ERRINFO) that R170 and R171 list: success with 0, and each error with its information words. -/
abbrev resultLegal (err : BitVec 4) (info : BitVec 8) : Prop :=
  (err = 0 ∧ info = 0) ∨ err = 1 ∨ (err = 2 ∧ 1 ≤ info.toNat ∧ info.toNat ≤ 4) ∨
    (err = 3 ∧ 1 ≤ info.toNat ∧ info.toNat ≤ 5) ∨ (err = 4 ∧ info = 0) ∨ (err = 5 ∧ (info = 1 ∨ info = 2))

/-- The state of the block is at the reset values of R41; the key codes and the PB entries are unspecified and not named. -/
def State.AtReset (s : State) : Prop :=
  s.busy = false ∧ s.haz = false ∧ s.err = 0 ∧ s.errInfo = 0 ∧ s.latch = 0 ∧ s.regs = Regs.zeros ∧ s.pulseCount = 0 ∧
    ∀ k, (s.keyAt k).valid = false

/-- The legal states: the parameters are in their ranges (R7), the memories have their form, ERR and ERRINFO are a pair
of R171, after an error there is no output (R172), and while the reset input is asserted the block is at its reset values
(R190). -/
structure State.Inv (s : State) : Prop where
  params : s.params.wf
  memory : Memory.wf s
  result : resultLegal s.err s.errInfo
  noPartialOutput : s.err ≠ 0 → s.pulseCount = 0
  heldReset : s.inReset = true → s.AtReset

/-- The inputs that have a meaning: admitted accesses (R62), the engine's turn and the levels of the reset input. -/
def PortEvent.meaningful : PortEvent → Bool
  | .read off bytes => admitted off bytes
  | .write off bytes _ => admitted off bytes
  | .engine => true
  | .reset _ => true

/-- A safe state: legal, with only meaningful inputs pending. -/
def State.Safe (s : State) : Prop := s.Inv ∧ ∀ e ∈ s.port, e.meaningful = true

/-- The inputs that are a host's accesses, admitted by R62. -/
def PortEvent.isHostAccess : PortEvent → Bool
  | .read off bytes => admitted off bytes
  | .write off bytes _ => admitted off bytes
  | .engine => false
  | .reset _ => false

/-- Every piece of the block's own state is the same in the two states (R64, R185). -/
def State.SameBlock (s t : State) : Prop :=
  t.params = s.params ∧ t.inReset = s.inReset ∧ t.busy = s.busy ∧ t.haz = s.haz ∧ t.err = s.err ∧
    t.errInfo = s.errInfo ∧ t.latch = s.latch ∧
    t.regs = s.regs ∧ t.keys = s.keys ∧ t.pulseCount = s.pulseCount ∧ t.pb = s.pb ∧ t.pbDraw = s.pbDraw

/-- What no command writes (R60, R172): descriptor and operand registers, key table, HAZ, LATCH, the parameters, the reset
input, and the host interface. BUSY is cleared by the engine step, not by the command (R200). -/
def State.SameInputs (s t : State) : Prop :=
  t.params = s.params ∧ t.inReset = s.inReset ∧ t.busy = s.busy ∧ t.haz = s.haz ∧ t.latch = s.latch ∧
    t.regs = s.regs ∧ t.keys = s.keys ∧ t.port = s.port ∧ t.replies = s.replies

/-- The error outcome of a command that starts in s (R172): ERR and ERRINFO as given, no output, nothing else changed. -/
def ErrorOutcome (s t : State) (code : BitVec 4) (info : BitVec 8) : Prop :=
  t.err = code ∧ t.errInfo = info ∧ t.pulseCount = 0 ∧ s.SameInputs t

/-- The success outcome of a command that starts in s and gives `seq` (R173): PB[0 .. n-1] = seq, PULSE_COUNT = n, the
entries at n and above as before, ERR and ERRINFO 0, nothing else changed. -/
def SuccessOutcome (s t : State) (seq : List Pulse) : Prop :=
  t.pulseCount = BitVec.ofNat 32 seq.length ∧ (∀ i (h : i < seq.length), t.pbAt i = seq[i]) ∧
    (∀ i, seq.length ≤ i → t.pbAt i = s.pbAt i) ∧ t.err = 0 ∧ t.errInfo = 0 ∧ s.SameInputs t

/-- When every check of `CheckFrame(k)` passes (R123), said on the registers' values. -/
structure FrameOk (k : Nat) (s : State) : Prop where
  zeroValid : s.regs.present.zeroValid = true
  oneValid : s.regs.present.oneValid = true
  hdrSize : s.regs.pcfg.hdrSize.toNat ≤ 64
  dataSize : s.regs.pcfg.dataSize.toNat ≤ 64
  ftrSize : s.regs.pcfg.ftrSize.toNat ≤ 64
  header : s.regs.present.hdrEn = true → s.regs.hdr.toNat < 2 ^ s.regs.pcfg.hdrSize.toNat
  keyIndex : k < s.params.nKeys
  keyValid : (s.keyAt k).valid = true
  keyCode : (s.keyAt k).val.toNat < 2 ^ s.regs.pcfg.dataSize.toNat
  footer : s.regs.present.ftrEn = true → s.regs.ftr.toNat < 2 ^ s.regs.pcfg.ftrSize.toNat

/-- The symbols of a field, written out (R104, R105, R107): position j of W carries bit j of v when LSB is sent first and
bit W-1-j when MSB is, as the one pair or the zero pair. -/
def fieldPulses (r : Regs) (v : DWord) (W : Nat) : List Pulse :=
  (List.range W).map fun j =>
    if v.getLsbD (if r.pcfg.firstBit then j else W - 1 - j) then r.one else r.zero

/-- The frame of key k, written out (R120): start, header, data, footer, each optional part under its PRESENT bit. -/
def framePulses (k : Nat) (s : State) : List Pulse :=
  (if s.regs.present.startEn then [s.regs.start] else []) ++
    (if s.regs.present.hdrEn then fieldPulses s.regs s.regs.hdr s.regs.pcfg.hdrSize.toNat else []) ++
    fieldPulses s.regs (s.keyAt k).val s.regs.pcfg.dataSize.toNat ++
    (if s.regs.present.ftrEn then fieldPulses s.regs s.regs.ftr s.regs.pcfg.ftrSize.toNat else [])

/-- The off values of the carrier cycles at 38 kHz, which repeat with period 19 (R146). -/
def offPattern : List Nat := [17, 18, 17, 17, 18, 17, 17, 18, 17, 17, 17, 18, 17, 17, 18, 17, 17, 18, 17]

/-- `n` carrier sub-pulses, written out (R146; the SUB(n) of 95_test_vectors.md). -/
def carrierPulses (n : Nat) : List Pulse :=
  (List.range n).map fun c => { on := 9, off := BitVec.ofNat 32 (offPattern.getD (c % 19) 0) }

/-- The expansion of one symbol, written out (R145, R146). -/
def symbolExpansion (tie : Tie) (p : Pulse) : List Pulse :=
  carrierPulses (cycles tie p.on.toNat) ++ [{ on := 0, off := p.off }]

/-- The output of GEN for a list of symbols, written out (R126): each symbol expanded, but a start pair passed through
when `P_START_MODULATED` is false. -/
def frameExpansion (p : Params) (startEn : Bool) (syms : List Pulse) : List Pulse :=
  if startEn && !p.startModulated then syms.take 1 ++ (syms.drop 1).flatMap (symbolExpansion p.roundTie)
  else syms.flatMap (symbolExpansion p.roundTie)

/-- The sum of the on and off durations of a list of Pulses, exact (R148). -/
def totalDuration (ps : List Pulse) : Nat := (ps.map fun p => p.on.toNat + p.off.toNat).sum

end Sys2Proof.Machine
end

