-- ==== Sys2Proof/Certificates/Slice0/Obligations.lean ====
section
/-! DEFINITION. The statements for the provers. Each docstring names the rule of spec/ it formalises. -/

open Sys2Proof Sys2Proof.Machine

/-! ### Encoding (30_encoding.md) -/

/-- Words of the V-DEC vectors and of R83 decode as the spec says (a sanity statement). -/
def Obligations.SpecWordsDecode : Prop :=
  decode 0x00000000 = .ok .nop ∧ decode 0x00000001 = .ok .clear ∧ decode 0x00000702 = .ok (.frame 7) ∧
    decode 0x0000FF03 = .ok (.gen 255) ∧ decode 0x00000004 = .ok .synth ∧ decode 0x00000005 = .ok .expand ∧
    decode 0x00000006 = .error .undefinedOpcode ∧ decode 0x00010006 = .error .undefinedOpcode ∧
    decode 0x00010002 = .error .reservedNotZero ∧ decode 0x00000504 = .error .keyNotTaken

/-- R84: decoding as a total function of the word's fields OP = w mod 2^8, KEY = (w / 2^8) mod 2^8, RSV = w / 2^16, with
the undefined-opcode test first. -/
def Obligations.DecodeFollowsTheFields : Prop :=
  ∀ w : Word,
    let op := w.toNat % 2 ^ 8
    let key := w.toNat / 2 ^ 8 % 2 ^ 8
    let rsv := w.toNat / 2 ^ 16
    let noKey := op = 0 ∨ op = 1 ∨ op = 4 ∨ op = 5
    (decode w = .error .undefinedOpcode ↔ 5 < op) ∧
    (decode w = .error .reservedNotZero ↔ op ≤ 5 ∧ rsv ≠ 0) ∧
    (decode w = .error .keyNotTaken ↔ noKey ∧ rsv = 0 ∧ key ≠ 0) ∧
    (decode w = .ok .nop ↔ op = 0 ∧ rsv = 0 ∧ key = 0) ∧
    (decode w = .ok .clear ↔ op = 1 ∧ rsv = 0 ∧ key = 0) ∧
    (∀ k, decode w = .ok (.frame k) ↔ op = 2 ∧ rsv = 0 ∧ key = k) ∧
    (∀ k, decode w = .ok (.gen k) ↔ op = 3 ∧ rsv = 0 ∧ key = k) ∧
    (decode w = .ok .synth ↔ op = 4 ∧ rsv = 0 ∧ key = 0) ∧
    (decode w = .ok .expand ↔ op = 5 ∧ rsv = 0 ∧ key = 0) ∧
    Illegal.undefinedOpcode.number = 1 ∧ Illegal.reservedNotZero.number = 2 ∧ Illegal.keyNotTaken.number = 2

/-- Every well-formed command is read back from its word, from its byte lanes whatever follows them, and from the opcode
table's numbering. -/
def Obligations.DecodeOfEncodeIsTheCommand : Prop :=
  ∀ i : Instr, i.WellFormed = true →
    decode (encode i) = .ok i ∧ (∀ rest, decodeBytes (encodeBytes i ++ rest) = .ok (i, rest)) ∧
      decodeTableWord 32 (encode i).toNat = some i

/-- A word that decodes is the word of the command it decodes to, so every command has exactly one word (R80, R83). -/
def Obligations.EncodeOfDecodeIsTheWord : Prop :=
  ∀ (w : Word) (i : Instr), decode w = .ok i → i.WellFormed = true ∧ encode i = w

/-- R83: the rows of the opcode map, that a word selects at most one of them, and that the row it selects is the command it
decodes to. -/
def Obligations.OpcodeRowsAreDisjointAndDecode : Prop :=
  opcodeRows.map (fun r => (r.mnemonic, r.pattern, r.mask)) =
      [("NOP", 0x00000000, 0xFFFFFFFF), ("CLEAR", 0x00000001, 0xFFFFFFFF), ("FRAME", 0x00000002, 0xFFFF00FF),
        ("GEN", 0x00000003, 0xFFFF00FF), ("SYNTH", 0x00000004, 0xFFFFFFFF), ("EXPAND", 0x00000005, 0xFFFFFFFF)] ∧
  ∀ w : Word,
    (∀ r ∈ opcodeRows, r.selects w = true ↔ w &&& r.mask = r.pattern) ∧
    (∀ r ∈ opcodeRows, ∀ r' ∈ opcodeRows, r.selects w = true → r'.selects w = true → r = r') ∧
    (∀ r ∈ opcodeRows, r.selects w = true → ∃ i, decode w = .ok i ∧ i.mnemonic = r.mnemonic) ∧
    (∀ i, decode w = .ok i → ∃ r ∈ opcodeRows, r.selects w = true ∧ r.mnemonic = i.mnemonic)

/-- R85: an illegal word, once latched, ends with ILLEGAL 1 or 2, whatever the descriptor. -/
def Obligations.IllegalWordEndsWithIllegal : Prop :=
  ∀ s : State, s.busy = true → s.port = [] →
    let op := s.latch.toNat % 2 ^ 8
    let key := s.latch.toNat / 2 ^ 8 % 2 ^ 8
    let rsv := s.latch.toNat / 2 ^ 16
    (5 < op → ∃ t, step s = .next t ∧ ErrorOutcome (s.setBusy false) t 5 1) ∧
    (op ≤ 5 → (rsv ≠ 0 ∨ (op = 0 ∨ op = 1 ∨ op = 4 ∨ op = 5) ∧ key ≠ 0) →
      ∃ t, step s = .next t ∧ ErrorOutcome (s.setBusy false) t 5 2)

/-! ### The engine step (70_reset_and_hazards.md) -/

/-- R200: at the engine's turn with BUSY = 1, a step performs the command that LATCH decodes to, or the illegal outcome,
and clears BUSY. That the turn comes when no input is pending, or when it stands first in the port, which it then leaves,
and that with BUSY = 0 the idle turn answers the state unchanged, is the model's choice (log entry 5): R200 says only that
the engine's step is enabled exactly when BUSY = 1. -/
def Obligations.StepPerformsTheLatchedCommand : Prop :=
  ∀ s s' : State, (s.port = [] ∧ s' = s ∨ ∃ rest, s.port = .engine :: rest ∧ s' = s.setPort rest) →
    (∀ i, s.busy = true → decode s.latch = .ok i → ∃ t, exec i s' = .next t ∧ step s = .next { t with busy := false }) ∧
    (∀ r, s.busy = true → decode s.latch = .error r →
      step s = .next { s'.raiseErr (.illegal r) with busy := false }) ∧
    (s.busy = false → step s = .next s')

/-- `withFetchWord` makes the very next step perform the command the word decodes to. It is the model's stand-in for the
CMD write (log entry 5), made with the reset input released (log entry 14). -/
def Obligations.FetchWordRunsNext : Prop :=
  ∀ (s : State) (w : Word) (i : Instr), decode w = .ok i →
    ∃ t, exec i { s with latch := w, busy := true, inReset := false } = .next t ∧
      step (s.withFetchWord 32 w.toNat) = .next { t with busy := false }

/-! ### Control commands (43_control.md) -/

/-- R160: NOP clears ERR and ERRINFO and changes nothing else; its word is 0. -/
def Obligations.NopClearsTheErrorOnly : Prop :=
  encode .nop = 0x00000000 ∧ ∀ s : State, exec .nop s = .next { s with err := 0, errInfo := 0 }

/-- R161: CLEAR clears PULSE_COUNT, ERR and ERRINFO and changes nothing else; no Pulse is visible after it. -/
def Obligations.ClearEmptiesTheOutput : Prop :=
  encode .clear = 0x00000001 ∧
    ∀ s : State, ∃ t, exec .clear s = .next t ∧ t = { s with pulseCount := 0, err := 0, errInfo := 0 } ∧
      ∀ i, t.visiblePulse i = { on := 0, off := 0 }

/-! ### Field values and bit order (40_bitfields.md) -/

/-- R110: the integer whose MSB-first bits are BitList(v, W) is v, the integer read back from the hex form is v and the
form has ceil(W/4) digits below 16; TxBits is BitList for MSB, and its reverse is BitList for LSB. -/
def Obligations.FieldRoundTrips : Prop :=
  ∀ (v : DWord) (W : Nat), W ≤ 64 → v.toNat < 2 ^ W →
    natOfBits (bitList v W) = v.toNat ∧ natOfHex (hexForm v.toNat W) = v.toNat ∧
      (hexForm v.toNat W).length = (W + 3) / 4 ∧ (∀ d ∈ hexForm v.toNat W, d < 16) ∧
      (txBits true v W).reverse = bitList v W ∧ txBits false v W = bitList v W

/-- R109: the value a host forms from bits `t` in transmission order, the sum of `t_i` times 2^(W-1-i) for MSB and times 2^i
for LSB, is sent in that order. -/
def Obligations.StoredValueIsSentInItsOrder : Prop :=
  ∀ (first : Bool) (t : List Bool), t.length ≤ 64 →
    (storedValue first t).toNat =
        ((List.range t.length).map fun i =>
          (t.getD i false).toNat * 2 ^ (if first then i else t.length - 1 - i)).sum ∧
      txBits first (storedValue first t) t.length = t

/-- R104 and R105: element j of the W bits of a field is bit W-1-j with MSB first and bit j with LSB first, zero above
the value. -/
def Obligations.BitsStandInTransmissionOrder : Prop :=
  ∀ (v : DWord) (W : Nat), (bitList v W).length = W ∧ (txBits true v W).length = W ∧ (txBits false v W).length = W ∧
    ∀ j, j < W →
      (bitList v W)[j]? = some (v.getLsbD (W - 1 - j)) ∧ (txBits false v W)[j]? = some (v.getLsbD (W - 1 - j)) ∧
        (txBits true v W)[j]? = some (v.getLsbD j)

/-- R106: LSB reverses each field within its own width and keeps the order of the fields and the start pair. -/
def Obligations.LsbReversesEachFieldAlone : Prop :=
  ∀ (k : Nat) (s : State), s.regs.pcfg.firstBit = true →
    let m : State := { s with regs := { s.regs with pcfg := { s.regs.pcfg with firstBit := false } } }
    symbols k s =
      startSymbols m.regs ++ (headerSymbols m.regs).reverse ++ (dataSymbols k m).reverse ++ (footerSymbols m.regs).reverse

/-! ### Frames (41_frame.md) -/

/-- R120: the symbols of a frame are start, header, data and footer in that order, each optional part under its PRESENT
bit, each field bit as the one pair or the zero pair in transmission order. -/
def Obligations.SymbolsAreStartHeaderDataFooter : Prop :=
  ∀ (k : Nat) (s : State), symbols k s = framePulses k s

/-- R124 with the count of R125: the number of symbols, at most 193 when the sizes are legal. -/
def Obligations.FrameLengthIsTheSumOfItsParts : Prop :=
  ∀ (k : Nat) (s : State),
    (symbols k s).length =
        s.regs.present.startEn.toNat + s.regs.present.hdrEn.toNat * s.regs.pcfg.hdrSize.toNat +
          s.regs.pcfg.dataSize.toNat + s.regs.present.ftrEn.toNat * s.regs.pcfg.ftrSize.toNat ∧
      (FrameOk k s → (symbols k s).length ≤ 193)

/-- R123: FRAME and GEN end with the first check that fails, in the order given. -/
def Obligations.FrameChecksInOrder : Prop :=
  ∀ (k : Nat) (s : State), ∀ i ∈ [Instr.frame k, Instr.gen k],
    let p := s.regs.present
    let c := s.regs.pcfg
    let fails := fun (code : BitVec 4) (info : BitVec 8) => ∃ t, exec i s = .next t ∧ ErrorOutcome s t code info
    (p.zeroValid = false → fails 3 1) ∧
    (p.zeroValid = true → p.oneValid = false → fails 3 2) ∧
    (p.zeroValid = true → p.oneValid = true →
      (64 < c.hdrSize.toNat → fails 3 3) ∧
      (c.hdrSize.toNat ≤ 64 → 64 < c.dataSize.toNat → fails 3 4) ∧
      (c.hdrSize.toNat ≤ 64 → c.dataSize.toNat ≤ 64 → 64 < c.ftrSize.toNat → fails 3 5) ∧
      (c.hdrSize.toNat ≤ 64 → c.dataSize.toNat ≤ 64 → c.ftrSize.toNat ≤ 64 →
        (p.hdrEn = true ∧ 2 ^ c.hdrSize.toNat ≤ s.regs.hdr.toNat → fails 2 1) ∧
        (¬ (p.hdrEn = true ∧ 2 ^ c.hdrSize.toNat ≤ s.regs.hdr.toNat) →
          (s.params.nKeys ≤ k ∨ (s.keyAt k).valid = false → fails 1 (BitVec.ofNat 8 k)) ∧
          (k < s.params.nKeys → (s.keyAt k).valid = true →
            (2 ^ c.dataSize.toNat ≤ (s.keyAt k).val.toNat → fails 2 2) ∧
            ((s.keyAt k).val.toNat < 2 ^ c.dataSize.toNat → p.ftrEn = true →
              2 ^ c.ftrSize.toNat ≤ s.regs.ftr.toNat → fails 2 3)))))

/-- R125: when every check passes, FRAME outputs the frame's symbols, or fails with CAPACITY when they are more than
`P_PULSE_CAP`. -/
def Obligations.FrameOutputsTheSymbols : Prop :=
  ∀ (k : Nat) (s : State), FrameOk k s →
    ((framePulses k s).length ≤ s.params.pulseCap →
      ∃ t, exec (.frame k) s = .next t ∧ SuccessOutcome s t (framePulses k s)) ∧
    (s.params.pulseCap < (framePulses k s).length → ∃ t, exec (.frame k) s = .next t ∧ ErrorOutcome s t 4 0)

/-- R126: when every check passes, GEN outputs the frame with every on-portion expanded into carrier sub-pulses of the
pattern of R146, the start pair passed through when `P_START_MODULATED` is false, or fails with CAPACITY when the
Pulses are more than `P_PULSE_CAP`. -/
def Obligations.GenOutputsTheExpandedFrame : Prop :=
  ∀ (k : Nat) (s : State), FrameOk k s →
    let out := frameExpansion s.params s.regs.present.startEn (framePulses k s)
    (out.length ≤ s.params.pulseCap → ∃ t, exec (.gen k) s = .next t ∧ SuccessOutcome s t out) ∧
    (s.params.pulseCap < out.length → ∃ t, exec (.gen k) s = .next t ∧ ErrorOutcome s t 4 0)

/-- The loop of GEN in R126, run whole before `Complete`, gives what exec gives: testing CAPACITY on the count first, as
R173 allows, changes no outcome. -/
def Obligations.GenIsItsPseudocode : Prop :=
  ∀ (k : Nat) (s : State),
    exec (.gen k) s = .next (match checkFrame k s with
      | some c => s.raiseErr c
      | none => s.finish (genLoop s.params s.regs.present.startEn 0 (symbols k s)))

/-- R121 and R28: no command reads STOP_ON, STOP_OFF, PRESENT.STOP_EN or GAP. -/
def Obligations.StopPairAndGapAreNeverRead : Prop :=
  ∀ (i : Instr) (s : State) (stop : Pulse) (gap : Word) (stopEn : Bool),
    let alter := fun r : Regs => { r with stop := stop, gap := gap, present := { r.present with stopEn := stopEn } }
    ∃ t, exec i s = .next t ∧ exec i { s with regs := alter s.regs } = .next { t with regs := alter t.regs }

/-- R39: no command reads a flag, so ERR, ERRINFO, HAZ and BUSY before a command have no effect on its outcome. -/
def Obligations.OutcomeIgnoresTheFlags : Prop :=
  ∀ (i : Instr) (s : State) (busy haz : Bool) (err : BitVec 4) (info : BitVec 8),
    ∃ t, exec i s = .next t ∧
      exec i { s with busy := busy, haz := haz, err := err, errInfo := info } = .next { t with busy := busy, haz := haz }

/-! ### Carrier synthesis (42_carrier.md) -/

/-- R143 with R146: the accumulate-and-correct loop never fails at 38 kHz and gives Cycles(on) sub-pulses (9, off) with
the off values of the 19-cycle pattern. -/
def Obligations.SynthGivesThePattern : Prop :=
  ∀ (tie : Tie) (on : Word), synth tie on = .ok (carrierPulses (cycles tie on.toNat))

/-- R146: T(0) = 0, the cycle boundaries are 26 or 27 µs apart, so the off value is 17 or 18, and T(m + 19) = T(m) + 500;
the off values over one period are the pattern. Synth never fails, and the off value of its cycle c, which does not depend
on the duration, is T(c + 1) - T(c) - 9. -/
def Obligations.CycleBoundariesKeepTheGrid : Prop :=
  ∀ (tie : Tie), cycleEnd tie 0 = 0 ∧ carrierOn tie = 9 ∧
    (∀ on : Word, synth tie on = .ok ((List.range (cycles tie on.toNat)).map fun c =>
      { on := 9, off := BitVec.ofNat 32 (cycleEnd tie (c + 1) - cycleEnd tie c - 9) })) ∧
    (∀ m, (cycleEnd tie (m + 1) = cycleEnd tie m + 26 ∨ cycleEnd tie (m + 1) = cycleEnd tie m + 27) ∧
      cycleEnd tie (m + 19) = cycleEnd tie m + 500) ∧
    (List.range 19).map (fun c => cycleEnd tie (c + 1) - cycleEnd tie c - carrierOn tie) = offPattern

/-- R148: the sub-pulses of Synth(on) are Cycles(on) in number, last T(Cycles(on)) in total, and differ from the requested
duration by at most 13 µs. -/
def Obligations.SynthDurationWithinThirteen : Prop :=
  ∀ (tie : Tie) (on : Word) (seq : List Pulse), synth tie on = .ok seq →
    seq.length = cycles tie on.toNat ∧ totalDuration seq = cycleEnd tie (cycles tie on.toNat) ∧
      totalDuration seq ≤ on.toNat + 13 ∧ on.toNat ≤ totalDuration seq + 13

/-- R152: no tie occurs in the cycle boundaries; the two tie rules give different cycle counts exactly at
on mod 1000 = 750, where HALF_UP gives one more. -/
def Obligations.TieRulesDifferOnlyAt750 : Prop :=
  (∀ m, cycleEnd .halfUp m = cycleEnd .halfEven m) ∧ carrierOn .halfUp = carrierOn .halfEven ∧
    (∀ on : Nat, 38 * on % 1000 = 500 ↔ on % 500 = 250) ∧
    (∀ on : Nat, cycles .halfUp on = cycles .halfEven on ↔ on % 1000 ≠ 750) ∧
    (∀ on : Nat, on % 1000 = 750 → cycles .halfUp on = cycles .halfEven on + 1)

/-- R147: the corner cases of Synth, under either tie rule. -/
def Obligations.ShortIntervalsGiveFewCycles : Prop :=
  ∀ (tie : Tie),
    (∀ on : Word, on.toNat ≤ 13 → synth tie on = .ok [] ∧
      ∀ off, expandSym tie { on := on, off := off } = .ok [{ on := 0, off := off }]) ∧
    (∀ on : Word, 14 ≤ on.toNat → on.toNat ≤ 39 → synth tie on = .ok [{ on := 9, off := 17 }]) ∧
    synth tie 40 = .ok [{ on := 9, off := 17 }, { on := 9, off := 18 }] ∧
    cycles tie (2 ^ 32 - 1) = 163208757 ∧
    (∀ s : State, s.params.wf → s.params.roundTie = tie → s.regs.argOn = 0xFFFFFFFF →
      ∀ i ∈ [Instr.synth, .expand], ∃ t, exec i s = .next t ∧ ErrorOutcome s t 4 0)

/-- R144 with R142: Cycles(on) is the integer nearest to 38·on/1000; of two equally near, HALF_UP takes the greater, so that
Cycles(on) = floor((38·on + 500) / 1000), and HALF_EVEN the even one. -/
def Obligations.CyclesIsTheNearestInteger : Prop :=
  ∀ on : Nat,
    (∀ tie : Tie, 2 * (1000 * cycles tie on) ≤ 2 * (38 * on) + 1000 ∧ 2 * (38 * on) ≤ 2 * (1000 * cycles tie on) + 1000) ∧
    cycles .halfUp on = (38 * on + 500) / 1000 ∧
    (38 * on % 1000 = 500 → cycles .halfEven on % 2 = 0)

/-- R150: SYNTH outputs Cycles(ARG_ON) carrier sub-pulses, or fails with CAPACITY when they are more than
`P_PULSE_CAP`. -/
def Obligations.SynthOutputsTheCarrier : Prop :=
  ∀ s : State,
    let n := cycles s.params.roundTie s.regs.argOn.toNat
    (n ≤ s.params.pulseCap → ∃ t, exec .synth s = .next t ∧ SuccessOutcome s t (carrierPulses n)) ∧
    (s.params.pulseCap < n → ∃ t, exec .synth s = .next t ∧ ErrorOutcome s t 4 0)

/-- R151: EXPAND outputs the sub-pulses and the space Pulse (0, ARG_OFF), or fails with CAPACITY when they are more than
`P_PULSE_CAP`. -/
def Obligations.ExpandOutputsTheSymbol : Prop :=
  ∀ s : State,
    let out := carrierPulses (cycles s.params.roundTie s.regs.argOn.toNat) ++ [{ on := 0, off := s.regs.argOff }]
    (out.length ≤ s.params.pulseCap → ∃ t, exec .expand s = .next t ∧ SuccessOutcome s t out) ∧
    (s.params.pulseCap < out.length → ∃ t, exec .expand s = .next t ∧ ErrorOutcome s t 4 0)

/-- R150 and R151: with `P_PULSE_CAP` = 8192 SYNTH fails with CAPACITY exactly from ARG_ON = 215593 and EXPAND exactly
from ARG_ON = 215566. -/
def Obligations.CapacityThresholdsOfTheCarrier : Prop :=
  ∀ s : State, s.params.pulseCap = 8192 →
    (∃ t, exec .synth s = .next t ∧ (t.err = 4 ↔ 215593 ≤ s.regs.argOn.toNat) ∧ (t.err = 0 ↔ s.regs.argOn.toNat < 215593)) ∧
    (∃ t, exec .expand s = .next t ∧ (t.err = 4 ↔ 215566 ≤ s.regs.argOn.toNat) ∧ (t.err = 0 ↔ s.regs.argOn.toNat < 215566))

/-- R31 and R150: SYNTH and EXPAND read no descriptor register and no key, only their operands and the parameters. -/
def Obligations.CarrierCommandsReadOnlyTheirOperands : Prop :=
  ∀ (s : State) (r : Regs) (ks : List KeyEntry), r.argOn = s.regs.argOn →
    (∃ t, exec .synth s = .next t ∧ exec .synth { s with regs := r, keys := ks } = .next { t with regs := r, keys := ks }) ∧
    (r.argOff = s.regs.argOff →
      ∃ t, exec .expand s = .next t ∧ exec .expand { s with regs := r, keys := ks } = .next { t with regs := r, keys := ks })

/-! ### Errors and what a command leaves unchanged (60_exceptions.md) -/

/-- R60 and R172: whatever its outcome, a command changes no descriptor or operand register, no key, HAZ, LATCH or
constant, and takes and returns nothing at the port; every register but STATUS, ERRINFO, PULSE_COUNT and the pulse
window reads as before. -/
def Obligations.CommandsLeaveTheHostsStateAlone : Prop :=
  ∀ (i : Instr) (s t : State), exec i s = .next t →
    s.SameInputs t ∧
      ∀ a, (a < 0x10000 ∨ 0x10000 + 8 * s.params.pulseCap ≤ a) → a ≠ 0x004 → a ≠ 0x008 → a ≠ 0x058 →
        t.readReg (regAt t.params a) = s.readReg (regAt s.params a)

/-- R170, R171 and R172: every command ends with a pair (ERR, ERRINFO) of the tables, codes 6 to 15 are never written, and
after an error PULSE_COUNT is 0 and every entry of the pulse window reads 0. -/
def Obligations.FailedCommandShowsNoOutput : Prop :=
  ∀ (i : Instr) (s : State), ∃ t, exec i s = .next t ∧ resultLegal t.err t.errInfo ∧
    (t.err ≠ 0 → t.pulseCount = 0 ∧ ∀ j, t.visiblePulse j = { on := 0, off := 0 })

/-- R175: FRAME and GEN with nothing enabled, DATA_SIZE = 0 and a defined key of value 0 succeed with an empty output,
and so does SYNTH with ARG_ON ≤ 13. -/
def Obligations.EmptyOutputIsASuccess : Prop :=
  (∀ (k : Nat) (s : State), FrameOk k s → s.regs.present.startEn = false → s.regs.present.hdrEn = false →
    s.regs.present.ftrEn = false → s.regs.pcfg.dataSize = 0 →
    ∀ i ∈ [Instr.frame k, Instr.gen k],
      ∃ t, exec i s = .next t ∧ t.err = 0 ∧ t.errInfo = 0 ∧ t.pulseCount = 0) ∧
  ∀ s : State, s.regs.argOn.toNat ≤ 13 →
    ∃ t, exec .synth s = .next t ∧ t.err = 0 ∧ t.errInfo = 0 ∧ t.pulseCount = 0

/-! ### Host accesses (20_memory.md, 10_state.md) -/

/-- R66: what a host read returns at every offset, from the register map; it changes no state of the block. While
BUSY = 1 nothing is said of PULSE_COUNT and of any offset of the pulse window (any value, R203). -/
def Obligations.HostReadReturnsTheRegister : Prop :=
  ∀ (s : State) (a : Nat) (rest : List PortEvent), s.params.wf → a % 4 = 0 → a < 0x20000 → s.port = .read a 4 :: rest →
    ∃ t v, step s = .next t ∧ s.SameBlock t ∧ t.port = rest ∧ t.replies = s.replies ++ [v] ∧
      (∀ row ∈ ([ (0x000, 0)
        , (0x004, BitVec.ofNat 32 (s.busy.toNat + 2 * s.haz.toNat + 2 ^ 8 * s.err.toNat))
        , (0x008, BitVec.ofNat 32 s.errInfo.toNat)
        , (0x00C, 0)
        , (0x010, BitVec.ofNat 32 (s.regs.present.startEn.toNat + 2 * s.regs.present.stopEn.toNat +
            4 * s.regs.present.zeroValid.toNat + 8 * s.regs.present.oneValid.toNat +
            16 * s.regs.present.hdrEn.toNat + 32 * s.regs.present.ftrEn.toNat))
        , (0x014, BitVec.ofNat 32 (s.regs.pcfg.firstBit.toNat + 2 ^ 8 * s.regs.pcfg.hdrSize.toNat +
            2 ^ 16 * s.regs.pcfg.dataSize.toNat + 2 ^ 24 * s.regs.pcfg.ftrSize.toNat))
        , (0x018, s.regs.gap), (0x01C, 0)
        , (0x020, s.regs.start.on), (0x024, s.regs.start.off), (0x028, s.regs.stop.on), (0x02C, s.regs.stop.off)
        , (0x030, s.regs.zero.on), (0x034, s.regs.zero.off), (0x038, s.regs.one.on), (0x03C, s.regs.one.off)
        , (0x040, s.regs.hdrLo), (0x044, s.regs.hdrHi), (0x048, s.regs.ftrLo), (0x04C, s.regs.ftrHi)
        , (0x050, s.regs.argOn), (0x054, s.regs.argOff)
        , (0x05C, BitVec.ofNat 32 s.params.pulseCap), (0x060, BitVec.ofNat 32 s.params.nKeys)
        , (0x064, BitVec.ofNat 32 (38 + 2 ^ 8 * 9 + 2 ^ 16 * (decide (s.params.roundTie = .halfEven)).toNat +
            2 ^ 17 * s.params.startModulated.toNat)) ] : List (Nat × Word)), a = row.1 → v = row.2) ∧
      (0x068 ≤ a → a < 0x1000 → v = 0) ∧
      (∀ k, k < s.params.nKeys →
        (a = 0x1000 + 16 * k → v = BitVec.ofNat 32 (s.keyAt k).valid.toNat) ∧ (a = 0x1004 + 16 * k → v = (s.keyAt k).lo) ∧
        (a = 0x1008 + 16 * k → v = (s.keyAt k).hi) ∧ (a = 0x100C + 16 * k → v = 0)) ∧
      (0x1000 + 16 * s.params.nKeys ≤ a → a < 0x10000 → v = 0) ∧
      (s.busy = false →
        (a = 0x058 → v = s.pulseCount) ∧ (0x10000 + 8 * s.params.pulseCap ≤ a → v = 0) ∧
        ∀ i, i < s.params.pulseCap →
          (a = 0x10000 + 8 * i → v = if i < s.pulseCount.toNat then (s.pbAt i).on else 0) ∧
          (a = 0x10004 + 8 * i → v = if i < s.pulseCount.toNat then (s.pbAt i).off else 0))

/-- R203: while BUSY = 1 a read of PULSE_COUNT or of an entry of the pulse window returns the free value of the next draw,
and the draw is used up, so the values of two reads are independent. That the value is `Config.freeWord` is the model's
form of "any 32-bit value" (log entry 2). That a reserved offset above the entries reads 0 then, as R66 and R34 say, where
R203 allows any value, is the model's choice (log entry 7). -/
def Obligations.BusyReadsOfTheOutputAreFree : Prop :=
  ∀ (s : State) (a : Nat) (rest : List PortEvent), s.params.wf → s.busy = true → a % 4 = 0 → s.port = .read a 4 :: rest →
    ((a = 0x058 ∨ 0x10000 ≤ a ∧ a < 0x10000 + 8 * s.params.pulseCap) →
      step s =
        .next { s with port := rest, replies := s.replies ++ [Config.freeWord s.draws a], draws := s.draws + 1 }) ∧
    (0x10000 + 8 * s.params.pulseCap ≤ a → a < 0x20000 →
      step s = .next { s with port := rest, replies := s.replies ++ [0] })

/-- R67: what a host write does at every offset, the reset input being released (a write made while it is asserted is in
`ResetDiscardsTheCommand`): STATUS is written whether BUSY is 0 or 1; any other write while BUSY = 1 only sets HAZ; CMD
latches; a read-write register stores its defined bits and no other register changes; a write to a read-only or reserved
offset changes nothing. -/
def Obligations.HostWriteStoresTheDefinedBits : Prop :=
  ∀ (s : State) (a : Nat) (v : Word) (rest : List PortEvent), s.Inv → s.inReset = false → a % 4 = 0 → a < 0x20000 →
    s.port = .write a 4 v :: rest →
    let writable := 0x010 ≤ a ∧ a ≤ 0x054 ∧ a ≠ 0x01C ∨ 0x1000 ≤ a ∧ a < 0x1000 + 16 * s.params.nKeys ∧ a % 16 ≠ 12
    let mask : Word := if a = 0x010 then 0x3F else if a = 0x014 then 0xFFFFFF01
      else if 0x1000 ≤ a ∧ a % 16 = 0 then 1 else 0xFFFFFFFF
    (a = 0x004 → step s = .next { s with port := rest, haz := if v.getLsbD 1 then false else s.haz }) ∧
    (a ≠ 0x004 → s.busy = true → step s = .next { s with port := rest, haz := true }) ∧
    (a = 0x000 → s.busy = false → step s = .next { s with port := rest, latch := v, busy := true }) ∧
    (writable → s.busy = false →
      ∃ t, step s = .next t ∧ t.port = rest ∧ t.busy = false ∧ t.latch = s.latch ∧ t.inReset = false ∧
      ∀ b, b % 4 = 0 → b < 0x20000 →
        t.readReg (regAt t.params b) = if b = a then v &&& mask else s.readReg (regAt s.params b)) ∧
    (¬ writable → a ≠ 0x000 → a ≠ 0x004 → s.busy = false → step s = .next { s with port := rest })

/-- R23: a write to CMD with BUSY = 0 latches the word and sets BUSY and changes nothing else; with BUSY = 1 it is ignored
and sets HAZ (the reset input being released); a read of CMD returns 0 and has no effect. -/
def Obligations.CmdWriteLatchesTheCommand : Prop :=
  ∀ (s : State) (rest : List PortEvent),
    (s.inReset = false → ∀ w : Word, s.port = .write 0x000 4 w :: rest →
      (s.busy = false → step s = .next { s with port := rest, latch := w, busy := true }) ∧
      (s.busy = true → step s = .next { s with port := rest, haz := true })) ∧
    (s.port = .read 0x000 4 :: rest → step s = .next { s with port := rest, replies := s.replies ++ [0] })

/-- R24: a write of v to STATUS clears HAZ when v[1] = 1 and changes nothing else, whether BUSY is 0 or 1, the reset input
being released. -/
def Obligations.StatusWriteClearsHazOnly : Prop :=
  ∀ (s : State) (v : Word) (rest : List PortEvent), s.inReset = false → s.port = .write 0x004 4 v :: rest →
    step s = .next { s with port := rest, haz := s.haz && !v.getLsbD 1 }

/-- R202: with BUSY = 1 a write to any offset but STATUS is ignored and sets HAZ, a write to STATUS acts as at any time, and
HAZ stays 1 until a write to STATUS with bit 1 = 1, or reset. -/
def Obligations.BusyWriteIsIgnoredAndSetsHaz : Prop :=
  (∀ (s : State) (a : Nat) (v : Word) (rest : List PortEvent), s.Inv → a % 4 = 0 → a < 0x20000 → s.busy = true →
    s.port = .write a 4 v :: rest →
    step s = .next { s with port := rest, haz := if a = 0x004 then s.haz && !v.getLsbD 1 else true }) ∧
  ∀ s t : State, step s = .next t → s.haz = true → t.haz = false →
    (∃ v rest, s.port = .write 0x004 4 v :: rest ∧ v.getLsbD 1 = true) ∨ ∃ b rest, s.port = .reset b :: rest

/-- R62: an access that is not a 32-bit access at a multiple of 4 inside the window is refused, by name. R62's sentence on
refusing names the width and the alignment; that an offset outside the window is refused too, and the refusal's name, are
the model's (log entry 10). -/
def Obligations.OtherAccessesAreRefused : Prop :=
  ∀ (s : State) (a n : Nat) (v : Word) (rest : List PortEvent), (n ≠ 4 ∨ a % 4 ≠ 0 ∨ 0x20000 ≤ a) →
    (s.port = .read a n :: rest → step s = .refused (.accessOutsideInterface a n)) ∧
    (s.port = .write a n v :: rest → step s = .refused (.accessOutsideInterface a n))

/-- R33: what the three constants read in every build, that no write changes them, and their values with the spec's
parameters. -/
def Obligations.ConstantRegistersRead : Prop :=
  (∀ s : State, s.readReg (regAt s.params 0x05C) = BitVec.ofNat 32 s.params.pulseCap ∧
    s.readReg (regAt s.params 0x060) = BitVec.ofNat 32 s.params.nKeys) ∧
  (∀ (s : State) (v : Word) (rest : List PortEvent), s.busy = false →
    ∀ a ∈ [0x05C, 0x060, 0x064], s.port = .write a 4 v :: rest → step s = .next { s with port := rest }) ∧
  (∀ s : State, s.params = Params.spec →
    s.readReg (regAt s.params 0x05C) = 0x00002000 ∧ s.readReg (regAt s.params 0x060) = 0x00000100 ∧
      s.readReg (regAt s.params 0x064) = 0x00020926) ∧
  ∀ s : State, s.readReg (regAt s.params 0x064) =
    match s.params.roundTie, s.params.startModulated with
    | .halfUp, true => 0x00020926
    | .halfEven, true => 0x00030926
    | .halfUp, false => 0x00000926
    | .halfEven, false => 0x00010926

/-- R30 and R63: HDR and FTR are HI·2^32 + LO, and byte lane j of a word carries bits [8j+7:8j]. -/
def Obligations.HalvesAndLanesAreLittleEndian : Prop :=
  (∀ r : Regs, r.hdr.toNat = r.hdrHi.toNat * 2 ^ 32 + r.hdrLo.toNat ∧ r.ftr.toNat = r.ftrHi.toNat * 2 ^ 32 + r.ftrLo.toNat) ∧
  (∀ e : KeyEntry, e.val.toNat = e.hi.toNat * 2 ^ 32 + e.lo.toNat) ∧
  ∀ b0 b1 b2 b3 : Byte,
    (wordOfLanes b0 b1 b2 b3).toNat = b0.toNat + 2 ^ 8 * b1.toNat + 2 ^ 16 * b2.toNat + 2 ^ 24 * b3.toNat ∧
      lanesOfWord (wordOfLanes b0 b1 b2 b3) = [b0, b1, b2, b3]

/-- R35 with SETKEY and DELKEY of R89, from an idle block with the reset input released: three writes define key k with
code v, one write undefines it and keeps its code; the other keys keep their entries. -/
def Obligations.KeysAreDefinedAndUndefined : Prop :=
  ∀ (s : State) (k : Nat) (v : DWord) (rest : List PortEvent), s.Inv → s.inReset = false → s.busy = false →
    k < s.params.nKeys →
    (s.port = HostProgram.setKey k v ++ rest →
      ∃ t, core.run 3 s = .next t ∧ (t.keyAt k).valid = true ∧ (t.keyAt k).val = v ∧
        (∀ j, j ≠ k → t.keyAt j = s.keyAt j) ∧ t.regs = s.regs ∧ t.port = rest) ∧
    (s.port = HostProgram.delKey k ++ rest →
      ∃ t, core.run 1 s = .next t ∧ (t.keyAt k).valid = false ∧ (t.keyAt k).val = (s.keyAt k).val ∧
        (∀ j, j ≠ k → t.keyAt j = s.keyAt j) ∧ t.regs = s.regs ∧ t.port = rest)

/-- R61: with `P_BASE` a multiple of 0x20000, the addresses of the window are the 0x20000 addresses from it, and the
offset is the address's low 17 bits. -/
def Obligations.WindowIsAlignedAtTheBase : Prop :=
  ∀ base addr off : Nat, base % 0x20000 = 0 →
    (windowOffset base addr = some off ↔ addr = base + off ∧ off < 0x20000) ∧
      (windowOffset base addr = some off → off = addr % 2 ^ 17)

/-! ### Reset (10_state.md R41, 70_reset_and_hazards.md) -/

/-- R41: the reset values the spec gives (the key codes and PB entries are unspecified and not named here). That the reset
input is released in the reset state is the model's choice (log entry 14), and so is holding the parameters of R7 in State
(log entry 1). -/
def Obligations.ResetValues : Prop :=
  let r := State.reset
  r.busy = false ∧ r.haz = false ∧ r.err = 0 ∧ r.errInfo = 0 ∧ r.latch = 0 ∧ r.regs = Regs.zeros ∧ r.pulseCount = 0 ∧
    r.params = Params.spec ∧ r.inReset = false ∧ (∀ k, (r.keyAt k).valid = false) ∧
    (∀ i, r.visiblePulse i = { on := 0, off := 0 }) ∧
    ∀ a, 0x004 ≤ a → a ≤ 0x058 → a % 4 = 0 → r.readReg (regAt r.params a) = 0

/-- R190: when the reset input is asserted, and when it is released, the block takes its reset values from any state and a
latched command is discarded; while it is asserted every step leaves the block at its reset values, a host write changes
nothing, not even HAZ, and only the release ends it. The values, and that they hold while the input is asserted, are R190's.
That the level reaches the block as events of the port is the model's form (log entries 5 and 14); that a host write made
while it is asserted is answered with a next state and is no hazard, the third clause, is the model's choice too (log
entry 14). -/
def Obligations.ResetDiscardsTheCommand : Prop :=
  (∀ (s : State) (asserted : Bool) (rest : List PortEvent), s.port = .reset asserted :: rest →
    (asserted = true ∨ s.inReset = true) →
    ∃ t, step s = .next t ∧ t.AtReset ∧ t.inReset = asserted ∧ t.params = s.params ∧ t.port = rest ∧
      ∀ i, t.visiblePulse i = { on := 0, off := 0 }) ∧
  (∀ s t : State, s.Inv → s.inReset = true → step s = .next t →
    t.AtReset ∧ t.params = s.params ∧ (t.inReset = false ↔ ∃ rest, s.port = .reset false :: rest)) ∧
  ∀ (s : State) (a : Nat) (v : Word) (rest : List PortEvent), s.inReset = true → a % 4 = 0 → a < 0x20000 →
    s.port = .write a 4 v :: rest → step s = .next { s with port := rest }

/-- R192, on the three states it names: after reset FRAME and GEN fail with MALFORMED 1, with MALFORMED 2 once ZERO_VALID is
set, and with KEY_NOT_FOUND k once both are (ERRINFO holds the index modulo 256 where k is 256 or more, log entry 13);
SYNTH, EXPAND, NOP and CLEAR succeed. -/
def Obligations.WhatWorksAfterReset : Prop :=
  ∀ k : Nat,
    let with' := fun zero one : Bool => { State.reset with
      regs := { Regs.zeros with present := { Regs.zeros.present with zeroValid := zero, oneValid := one } } }
    (∀ i ∈ [Instr.frame k, Instr.gen k],
      (∃ t, exec i State.reset = .next t ∧ t.err = 3 ∧ t.errInfo = 1) ∧
      (∃ t, exec i (with' true false) = .next t ∧ t.err = 3 ∧ t.errInfo = 2) ∧
      (∃ t, exec i (with' true true) = .next t ∧ t.err = 1 ∧ t.errInfo = BitVec.ofNat 8 k)) ∧
    ∀ i ∈ [Instr.synth, .expand, .nop, .clear], ∃ t, exec i State.reset = .next t ∧ t.err = 0

/-! ### Whole-machine rules -/

/-- The reset state is legal. -/
def Obligations.ResetIsLegal : Prop := State.reset.Inv

/-- Every step from a legal state that ends in a next state ends in a legal state, and no step changes the parameters. -/
def Obligations.StepKeepsLegality : Prop :=
  ∀ s t : State, s.Inv → step s = .next t → t.Inv ∧ t.params = s.params

/-- A safe state always has a next state, and that state is safe: with only meaningful inputs pending, the machine never
stops, whatever words are latched and whatever the registers hold (R85, R177, R200). That a step with nothing pending is the
engine's turn is log entry 5. -/
def Obligations.SafeStatesNeverStop : Prop :=
  ∀ s : State, s.Safe → ∀ n, ∃ t, core.run n s = .next t ∧ t.Safe

/-- R64 and R185: a read changes no state of the block, and neither does an idle engine; nor a write or the engine's turn
while the reset input is asserted, nor its release when it is not asserted. When the engine's turn comes, and that an idle
turn is a step, is the model's choice (log entry 5); so is the form of the reset input's events (log entry 14). -/
def Obligations.ReadsAndIdleTurnsChangeNothing : Prop :=
  ∀ s t : State, step s = .next t →
    ((∃ a n rest, s.port = .read a n :: rest) ∨ (s.busy = false ∧ (s.port = [] ∨ ∃ rest, s.port = .engine :: rest)) ∨
      (s.inReset = true ∧ ∃ a n v rest, s.port = .write a n v :: rest) ∨
      (s.inReset = false ∧ ∃ rest, s.port = .reset false :: rest)) →
    s.SameBlock t

/-- R39: what sets and clears BUSY and HAZ, and that ERR and ERRINFO change only at the end of a command or at reset. When
the engine's turn comes is the model's choice (log entry 5). -/
def Obligations.FlagsChangeOnlyAsListed : Prop :=
  ∀ s t : State, step s = .next t →
    let engineTurn := s.port = [] ∨ ∃ rest, s.port = .engine :: rest
    let resetTurn := ∃ b rest, s.port = .reset b :: rest
    (s.busy = false → t.busy = true → ∃ rest, s.port = .write 0x000 4 t.latch :: rest) ∧
    (s.busy = true → t.busy = false → engineTurn ∨ resetTurn) ∧
    (s.busy = true → engineTurn → t.busy = false) ∧
    (s.haz = false → t.haz = true → s.busy = true ∧ ∃ a v rest, a ≠ 0x004 ∧ s.port = .write a 4 v :: rest) ∧
    (s.haz = true → t.haz = false → (∃ v rest, s.port = .write 0x004 4 v :: rest ∧ v.getLsbD 1 = true) ∨ resetTurn) ∧
    ((t.err ≠ s.err ∨ t.errInfo ≠ s.errInfo) → (s.busy = true ∧ engineTurn) ∨ resetTurn)

/-- R60: host writes never change the output or the result, and engine steps never change what the host wrote, HAZ or
LATCH. -/
def Obligations.HostAndEngineWriteApart : Prop :=
  ∀ s t : State, step s = .next t →
    ((∃ a v rest, s.port = .write a 4 v :: rest) →
      t.pulseCount = s.pulseCount ∧ (∀ i, t.pbAt i = s.pbAt i) ∧ t.err = s.err ∧ t.errInfo = s.errInfo) ∧
    ((s.port = [] ∨ ∃ rest, s.port = .engine :: rest) →
      t.regs = s.regs ∧ t.keys = s.keys ∧ t.haz = s.haz ∧ t.latch = s.latch ∧ t.params = s.params ∧
        t.inReset = s.inReset)

/-- R65, R73 and R201: whatever host accesses come between the CMD write and the engine step, and however many, the command
uses the registers as they stood when it was latched: its result and its output are those of an engine step taken at
once. The order of accesses and turns is the model's port (log entry 5). -/
def Obligations.LatencyDoesNotChangeTheOutcome : Prop :=
  ∀ (s : State) (es rest : List PortEvent), s.busy = true → (∀ e ∈ es, e.isHostAccess = true) →
    s.port = es ++ .engine :: rest →
    ∃ t u u0, core.run es.length s = .next t ∧ core.run (es.length + 1) s = .next u ∧
      step { s with port := [] } = .next u0 ∧
      t.busy = true ∧ t.latch = s.latch ∧ t.regs = s.regs ∧ t.keys = s.keys ∧
      u.busy = false ∧ u.regs = s.regs ∧ u.keys = s.keys ∧ u.port = rest ∧
      u.err = u0.err ∧ u.errInfo = u0.errInfo ∧ u.pulseCount = u0.pulseCount ∧
      ∀ i, u.visiblePulse i = u0.visiblePulse i

/-- `RUN m` of R89, for every number of polls before the engine step (R201): the host reads BUSY = 1 with the previous
command's ERR at each poll, then the command's own result; the outcome is that of the command's meaning (R207). The reset
input is released; the order of accesses and turns is the model's port (log entry 5). -/
def Obligations.RunCompletesTheCommand : Prop :=
  ∀ (s : State) (i : Instr) (n : Nat) (rest : List PortEvent), i.WellFormed = true → s.busy = false → s.inReset = false →
    s.port = HostProgram.run i n ++ rest →
    ∃ t u, exec i s = .next t ∧ core.run (n + 3) s = .next u ∧
      u.busy = false ∧ u.haz = s.haz ∧ u.err = t.err ∧ u.errInfo = t.errInfo ∧ u.pulseCount = t.pulseCount ∧
      (∀ j, u.visiblePulse j = t.visiblePulse j) ∧ u.regs = s.regs ∧ u.keys = s.keys ∧ u.port = rest ∧
      u.replies = s.replies ++
        List.replicate n (BitVec.ofNat 32 (1 + 2 * s.haz.toNat + 2 ^ 8 * s.err.toNat)) ++
        [BitVec.ofNat 32 (2 * s.haz.toNat + 2 ^ 8 * t.err.toNat)]
end

