-- ==== Sys2Proof/Laws/State.lean ====
section
/-! SUPPORT. What each update of the state does to each field: one lemma per field per update. -/

namespace Sys2Proof.Machine

open Sys2Proof

section setPort

variable (s : State) (p : List PortEvent)

@[simp] theorem State.setPort_params : (s.setPort p).params = s.params := rfl
@[simp] theorem State.setPort_inReset : (s.setPort p).inReset = s.inReset := rfl
@[simp] theorem State.setPort_busy : (s.setPort p).busy = s.busy := rfl
@[simp] theorem State.setPort_haz : (s.setPort p).haz = s.haz := rfl
@[simp] theorem State.setPort_err : (s.setPort p).err = s.err := rfl
@[simp] theorem State.setPort_errInfo : (s.setPort p).errInfo = s.errInfo := rfl
@[simp] theorem State.setPort_latch : (s.setPort p).latch = s.latch := rfl
@[simp] theorem State.setPort_regs : (s.setPort p).regs = s.regs := rfl
@[simp] theorem State.setPort_keys : (s.setPort p).keys = s.keys := rfl
@[simp] theorem State.setPort_pulseCount : (s.setPort p).pulseCount = s.pulseCount := rfl
@[simp] theorem State.setPort_pb : (s.setPort p).pb = s.pb := rfl
@[simp] theorem State.setPort_pbDraw : (s.setPort p).pbDraw = s.pbDraw := rfl
@[simp] theorem State.setPort_port : (s.setPort p).port = p := rfl
@[simp] theorem State.setPort_replies : (s.setPort p).replies = s.replies := rfl
@[simp] theorem State.setPort_draws : (s.setPort p).draws = s.draws := rfl

end setPort

section setBusy

variable (s : State) (b : Bool)

@[simp] theorem State.setBusy_params : (s.setBusy b).params = s.params := rfl
@[simp] theorem State.setBusy_inReset : (s.setBusy b).inReset = s.inReset := rfl
@[simp] theorem State.setBusy_busy : (s.setBusy b).busy = b := rfl
@[simp] theorem State.setBusy_haz : (s.setBusy b).haz = s.haz := rfl
@[simp] theorem State.setBusy_err : (s.setBusy b).err = s.err := rfl
@[simp] theorem State.setBusy_errInfo : (s.setBusy b).errInfo = s.errInfo := rfl
@[simp] theorem State.setBusy_latch : (s.setBusy b).latch = s.latch := rfl
@[simp] theorem State.setBusy_regs : (s.setBusy b).regs = s.regs := rfl
@[simp] theorem State.setBusy_keys : (s.setBusy b).keys = s.keys := rfl
@[simp] theorem State.setBusy_pulseCount : (s.setBusy b).pulseCount = s.pulseCount := rfl
@[simp] theorem State.setBusy_pb : (s.setBusy b).pb = s.pb := rfl
@[simp] theorem State.setBusy_pbDraw : (s.setBusy b).pbDraw = s.pbDraw := rfl
@[simp] theorem State.setBusy_port : (s.setBusy b).port = s.port := rfl
@[simp] theorem State.setBusy_replies : (s.setBusy b).replies = s.replies := rfl
@[simp] theorem State.setBusy_draws : (s.setBusy b).draws = s.draws := rfl

end setBusy

section setHaz

variable (s : State) (b : Bool)

@[simp] theorem State.setHaz_params : (s.setHaz b).params = s.params := rfl
@[simp] theorem State.setHaz_inReset : (s.setHaz b).inReset = s.inReset := rfl
@[simp] theorem State.setHaz_busy : (s.setHaz b).busy = s.busy := rfl
@[simp] theorem State.setHaz_haz : (s.setHaz b).haz = b := rfl
@[simp] theorem State.setHaz_err : (s.setHaz b).err = s.err := rfl
@[simp] theorem State.setHaz_errInfo : (s.setHaz b).errInfo = s.errInfo := rfl
@[simp] theorem State.setHaz_latch : (s.setHaz b).latch = s.latch := rfl
@[simp] theorem State.setHaz_regs : (s.setHaz b).regs = s.regs := rfl
@[simp] theorem State.setHaz_keys : (s.setHaz b).keys = s.keys := rfl
@[simp] theorem State.setHaz_pulseCount : (s.setHaz b).pulseCount = s.pulseCount := rfl
@[simp] theorem State.setHaz_pb : (s.setHaz b).pb = s.pb := rfl
@[simp] theorem State.setHaz_pbDraw : (s.setHaz b).pbDraw = s.pbDraw := rfl
@[simp] theorem State.setHaz_port : (s.setHaz b).port = s.port := rfl
@[simp] theorem State.setHaz_replies : (s.setHaz b).replies = s.replies := rfl
@[simp] theorem State.setHaz_draws : (s.setHaz b).draws = s.draws := rfl

end setHaz

section setLatch

variable (s : State) (w : Word)

@[simp] theorem State.setLatch_params : (s.setLatch w).params = s.params := rfl
@[simp] theorem State.setLatch_inReset : (s.setLatch w).inReset = s.inReset := rfl
@[simp] theorem State.setLatch_busy : (s.setLatch w).busy = s.busy := rfl
@[simp] theorem State.setLatch_haz : (s.setLatch w).haz = s.haz := rfl
@[simp] theorem State.setLatch_err : (s.setLatch w).err = s.err := rfl
@[simp] theorem State.setLatch_errInfo : (s.setLatch w).errInfo = s.errInfo := rfl
@[simp] theorem State.setLatch_latch : (s.setLatch w).latch = w := rfl
@[simp] theorem State.setLatch_regs : (s.setLatch w).regs = s.regs := rfl
@[simp] theorem State.setLatch_keys : (s.setLatch w).keys = s.keys := rfl
@[simp] theorem State.setLatch_pulseCount : (s.setLatch w).pulseCount = s.pulseCount := rfl
@[simp] theorem State.setLatch_pb : (s.setLatch w).pb = s.pb := rfl
@[simp] theorem State.setLatch_pbDraw : (s.setLatch w).pbDraw = s.pbDraw := rfl
@[simp] theorem State.setLatch_port : (s.setLatch w).port = s.port := rfl
@[simp] theorem State.setLatch_replies : (s.setLatch w).replies = s.replies := rfl
@[simp] theorem State.setLatch_draws : (s.setLatch w).draws = s.draws := rfl

end setLatch

section setRegs

variable (s : State) (r : Regs)

@[simp] theorem State.setRegs_params : (s.setRegs r).params = s.params := rfl
@[simp] theorem State.setRegs_inReset : (s.setRegs r).inReset = s.inReset := rfl
@[simp] theorem State.setRegs_busy : (s.setRegs r).busy = s.busy := rfl
@[simp] theorem State.setRegs_haz : (s.setRegs r).haz = s.haz := rfl
@[simp] theorem State.setRegs_err : (s.setRegs r).err = s.err := rfl
@[simp] theorem State.setRegs_errInfo : (s.setRegs r).errInfo = s.errInfo := rfl
@[simp] theorem State.setRegs_latch : (s.setRegs r).latch = s.latch := rfl
@[simp] theorem State.setRegs_regs : (s.setRegs r).regs = r := rfl
@[simp] theorem State.setRegs_keys : (s.setRegs r).keys = s.keys := rfl
@[simp] theorem State.setRegs_pulseCount : (s.setRegs r).pulseCount = s.pulseCount := rfl
@[simp] theorem State.setRegs_pb : (s.setRegs r).pb = s.pb := rfl
@[simp] theorem State.setRegs_pbDraw : (s.setRegs r).pbDraw = s.pbDraw := rfl
@[simp] theorem State.setRegs_port : (s.setRegs r).port = s.port := rfl
@[simp] theorem State.setRegs_replies : (s.setRegs r).replies = s.replies := rfl
@[simp] theorem State.setRegs_draws : (s.setRegs r).draws = s.draws := rfl

end setRegs

section setKeys

variable (s : State) (ks : List KeyEntry)

@[simp] theorem State.setKeys_params : (s.setKeys ks).params = s.params := rfl
@[simp] theorem State.setKeys_inReset : (s.setKeys ks).inReset = s.inReset := rfl
@[simp] theorem State.setKeys_busy : (s.setKeys ks).busy = s.busy := rfl
@[simp] theorem State.setKeys_haz : (s.setKeys ks).haz = s.haz := rfl
@[simp] theorem State.setKeys_err : (s.setKeys ks).err = s.err := rfl
@[simp] theorem State.setKeys_errInfo : (s.setKeys ks).errInfo = s.errInfo := rfl
@[simp] theorem State.setKeys_latch : (s.setKeys ks).latch = s.latch := rfl
@[simp] theorem State.setKeys_regs : (s.setKeys ks).regs = s.regs := rfl
@[simp] theorem State.setKeys_keys : (s.setKeys ks).keys = ks := rfl
@[simp] theorem State.setKeys_pulseCount : (s.setKeys ks).pulseCount = s.pulseCount := rfl
@[simp] theorem State.setKeys_pb : (s.setKeys ks).pb = s.pb := rfl
@[simp] theorem State.setKeys_pbDraw : (s.setKeys ks).pbDraw = s.pbDraw := rfl
@[simp] theorem State.setKeys_port : (s.setKeys ks).port = s.port := rfl
@[simp] theorem State.setKeys_replies : (s.setKeys ks).replies = s.replies := rfl
@[simp] theorem State.setKeys_draws : (s.setKeys ks).draws = s.draws := rfl

end setKeys

section setKey

variable (s : State) (k : Nat) (e : KeyEntry)

@[simp] theorem State.setKey_params : (s.setKey k e).params = s.params := rfl
@[simp] theorem State.setKey_inReset : (s.setKey k e).inReset = s.inReset := rfl
@[simp] theorem State.setKey_busy : (s.setKey k e).busy = s.busy := rfl
@[simp] theorem State.setKey_haz : (s.setKey k e).haz = s.haz := rfl
@[simp] theorem State.setKey_err : (s.setKey k e).err = s.err := rfl
@[simp] theorem State.setKey_errInfo : (s.setKey k e).errInfo = s.errInfo := rfl
@[simp] theorem State.setKey_latch : (s.setKey k e).latch = s.latch := rfl
@[simp] theorem State.setKey_regs : (s.setKey k e).regs = s.regs := rfl
@[simp] theorem State.setKey_keys : (s.setKey k e).keys = s.keys.set k e := rfl
@[simp] theorem State.setKey_pulseCount : (s.setKey k e).pulseCount = s.pulseCount := rfl
@[simp] theorem State.setKey_pb : (s.setKey k e).pb = s.pb := rfl
@[simp] theorem State.setKey_pbDraw : (s.setKey k e).pbDraw = s.pbDraw := rfl
@[simp] theorem State.setKey_port : (s.setKey k e).port = s.port := rfl
@[simp] theorem State.setKey_replies : (s.setKey k e).replies = s.replies := rfl
@[simp] theorem State.setKey_draws : (s.setKey k e).draws = s.draws := rfl

end setKey

section setResult

variable (s : State) (c : BitVec 4) (i : BitVec 8)

@[simp] theorem State.setResult_params : (s.setResult c i).params = s.params := rfl
@[simp] theorem State.setResult_inReset : (s.setResult c i).inReset = s.inReset := rfl
@[simp] theorem State.setResult_busy : (s.setResult c i).busy = s.busy := rfl
@[simp] theorem State.setResult_haz : (s.setResult c i).haz = s.haz := rfl
@[simp] theorem State.setResult_err : (s.setResult c i).err = c := rfl
@[simp] theorem State.setResult_errInfo : (s.setResult c i).errInfo = i := rfl
@[simp] theorem State.setResult_latch : (s.setResult c i).latch = s.latch := rfl
@[simp] theorem State.setResult_regs : (s.setResult c i).regs = s.regs := rfl
@[simp] theorem State.setResult_keys : (s.setResult c i).keys = s.keys := rfl
@[simp] theorem State.setResult_pulseCount : (s.setResult c i).pulseCount = s.pulseCount := rfl
@[simp] theorem State.setResult_pb : (s.setResult c i).pb = s.pb := rfl
@[simp] theorem State.setResult_pbDraw : (s.setResult c i).pbDraw = s.pbDraw := rfl
@[simp] theorem State.setResult_port : (s.setResult c i).port = s.port := rfl
@[simp] theorem State.setResult_replies : (s.setResult c i).replies = s.replies := rfl
@[simp] theorem State.setResult_draws : (s.setResult c i).draws = s.draws := rfl

end setResult

section setCount

variable (s : State) (n : Word)

@[simp] theorem State.setCount_params : (s.setCount n).params = s.params := rfl
@[simp] theorem State.setCount_inReset : (s.setCount n).inReset = s.inReset := rfl
@[simp] theorem State.setCount_busy : (s.setCount n).busy = s.busy := rfl
@[simp] theorem State.setCount_haz : (s.setCount n).haz = s.haz := rfl
@[simp] theorem State.setCount_err : (s.setCount n).err = s.err := rfl
@[simp] theorem State.setCount_errInfo : (s.setCount n).errInfo = s.errInfo := rfl
@[simp] theorem State.setCount_latch : (s.setCount n).latch = s.latch := rfl
@[simp] theorem State.setCount_regs : (s.setCount n).regs = s.regs := rfl
@[simp] theorem State.setCount_keys : (s.setCount n).keys = s.keys := rfl
@[simp] theorem State.setCount_pulseCount : (s.setCount n).pulseCount = n := rfl
@[simp] theorem State.setCount_pb : (s.setCount n).pb = s.pb := rfl
@[simp] theorem State.setCount_pbDraw : (s.setCount n).pbDraw = s.pbDraw := rfl
@[simp] theorem State.setCount_port : (s.setCount n).port = s.port := rfl
@[simp] theorem State.setCount_replies : (s.setCount n).replies = s.replies := rfl
@[simp] theorem State.setCount_draws : (s.setCount n).draws = s.draws := rfl

end setCount

section reply

variable (s : State) (v : Word)

@[simp] theorem State.reply_params : (s.reply v).params = s.params := rfl
@[simp] theorem State.reply_inReset : (s.reply v).inReset = s.inReset := rfl
@[simp] theorem State.reply_busy : (s.reply v).busy = s.busy := rfl
@[simp] theorem State.reply_haz : (s.reply v).haz = s.haz := rfl
@[simp] theorem State.reply_err : (s.reply v).err = s.err := rfl
@[simp] theorem State.reply_errInfo : (s.reply v).errInfo = s.errInfo := rfl
@[simp] theorem State.reply_latch : (s.reply v).latch = s.latch := rfl
@[simp] theorem State.reply_regs : (s.reply v).regs = s.regs := rfl
@[simp] theorem State.reply_keys : (s.reply v).keys = s.keys := rfl
@[simp] theorem State.reply_pulseCount : (s.reply v).pulseCount = s.pulseCount := rfl
@[simp] theorem State.reply_pb : (s.reply v).pb = s.pb := rfl
@[simp] theorem State.reply_pbDraw : (s.reply v).pbDraw = s.pbDraw := rfl
@[simp] theorem State.reply_port : (s.reply v).port = s.port := rfl
@[simp] theorem State.reply_replies : (s.reply v).replies = s.replies ++ [v] := rfl
@[simp] theorem State.reply_draws : (s.reply v).draws = s.draws := rfl

end reply

section drawn

variable (s : State)

@[simp] theorem State.drawn_params : s.drawn.params = s.params := rfl
@[simp] theorem State.drawn_inReset : s.drawn.inReset = s.inReset := rfl
@[simp] theorem State.drawn_busy : s.drawn.busy = s.busy := rfl
@[simp] theorem State.drawn_haz : s.drawn.haz = s.haz := rfl
@[simp] theorem State.drawn_err : s.drawn.err = s.err := rfl
@[simp] theorem State.drawn_errInfo : s.drawn.errInfo = s.errInfo := rfl
@[simp] theorem State.drawn_latch : s.drawn.latch = s.latch := rfl
@[simp] theorem State.drawn_regs : s.drawn.regs = s.regs := rfl
@[simp] theorem State.drawn_keys : s.drawn.keys = s.keys := rfl
@[simp] theorem State.drawn_pulseCount : s.drawn.pulseCount = s.pulseCount := rfl
@[simp] theorem State.drawn_pb : s.drawn.pb = s.pb := rfl
@[simp] theorem State.drawn_pbDraw : s.drawn.pbDraw = s.pbDraw := rfl
@[simp] theorem State.drawn_port : s.drawn.port = s.port := rfl
@[simp] theorem State.drawn_replies : s.drawn.replies = s.replies := rfl
@[simp] theorem State.drawn_draws : s.drawn.draws = s.draws + 1 := rfl

end drawn

section storePulses

variable (s : State) (seq : List Pulse)

@[simp] theorem State.storePulses_params : (s.storePulses seq).params = s.params := rfl
@[simp] theorem State.storePulses_inReset : (s.storePulses seq).inReset = s.inReset := rfl
@[simp] theorem State.storePulses_busy : (s.storePulses seq).busy = s.busy := rfl
@[simp] theorem State.storePulses_haz : (s.storePulses seq).haz = s.haz := rfl
@[simp] theorem State.storePulses_err : (s.storePulses seq).err = s.err := rfl
@[simp] theorem State.storePulses_errInfo : (s.storePulses seq).errInfo = s.errInfo := rfl
@[simp] theorem State.storePulses_latch : (s.storePulses seq).latch = s.latch := rfl
@[simp] theorem State.storePulses_regs : (s.storePulses seq).regs = s.regs := rfl
@[simp] theorem State.storePulses_keys : (s.storePulses seq).keys = s.keys := rfl
@[simp] theorem State.storePulses_pulseCount : (s.storePulses seq).pulseCount = s.pulseCount := rfl
@[simp] theorem State.storePulses_pb : (s.storePulses seq).pb = seq ++ s.pb.drop seq.length := rfl
@[simp] theorem State.storePulses_pbDraw : (s.storePulses seq).pbDraw = s.pbDraw := rfl
@[simp] theorem State.storePulses_port : (s.storePulses seq).port = s.port := rfl
@[simp] theorem State.storePulses_replies : (s.storePulses seq).replies = s.replies := rfl
@[simp] theorem State.storePulses_draws : (s.storePulses seq).draws = s.draws := rfl

end storePulses

section dropPulses

variable (s : State)

@[simp] theorem State.dropPulses_params : s.dropPulses.params = s.params := rfl
@[simp] theorem State.dropPulses_inReset : s.dropPulses.inReset = s.inReset := rfl
@[simp] theorem State.dropPulses_busy : s.dropPulses.busy = s.busy := rfl
@[simp] theorem State.dropPulses_haz : s.dropPulses.haz = s.haz := rfl
@[simp] theorem State.dropPulses_err : s.dropPulses.err = s.err := rfl
@[simp] theorem State.dropPulses_errInfo : s.dropPulses.errInfo = s.errInfo := rfl
@[simp] theorem State.dropPulses_latch : s.dropPulses.latch = s.latch := rfl
@[simp] theorem State.dropPulses_regs : s.dropPulses.regs = s.regs := rfl
@[simp] theorem State.dropPulses_keys : s.dropPulses.keys = s.keys := rfl
@[simp] theorem State.dropPulses_pulseCount : s.dropPulses.pulseCount = s.pulseCount := rfl
@[simp] theorem State.dropPulses_pb : s.dropPulses.pb = [] := rfl
@[simp] theorem State.dropPulses_pbDraw : s.dropPulses.pbDraw = s.draws := rfl
@[simp] theorem State.dropPulses_port : s.dropPulses.port = s.port := rfl
@[simp] theorem State.dropPulses_replies : s.dropPulses.replies = s.replies := rfl
@[simp] theorem State.dropPulses_draws : s.dropPulses.draws = s.draws + 1 := rfl

end dropPulses

section raiseErr

variable (s : State) (c : Cause)

@[simp] theorem State.raiseErr_params : (s.raiseErr c).params = s.params := rfl
@[simp] theorem State.raiseErr_inReset : (s.raiseErr c).inReset = s.inReset := rfl
@[simp] theorem State.raiseErr_busy : (s.raiseErr c).busy = s.busy := rfl
@[simp] theorem State.raiseErr_haz : (s.raiseErr c).haz = s.haz := rfl
@[simp] theorem State.raiseErr_err : (s.raiseErr c).err = c.code := rfl
@[simp] theorem State.raiseErr_errInfo : (s.raiseErr c).errInfo = c.info := rfl
@[simp] theorem State.raiseErr_latch : (s.raiseErr c).latch = s.latch := rfl
@[simp] theorem State.raiseErr_regs : (s.raiseErr c).regs = s.regs := rfl
@[simp] theorem State.raiseErr_keys : (s.raiseErr c).keys = s.keys := rfl
@[simp] theorem State.raiseErr_pulseCount : (s.raiseErr c).pulseCount = 0 := rfl
@[simp] theorem State.raiseErr_pb : (s.raiseErr c).pb = [] := rfl
@[simp] theorem State.raiseErr_pbDraw : (s.raiseErr c).pbDraw = s.draws := rfl
@[simp] theorem State.raiseErr_port : (s.raiseErr c).port = s.port := rfl
@[simp] theorem State.raiseErr_replies : (s.raiseErr c).replies = s.replies := rfl
@[simp] theorem State.raiseErr_draws : (s.raiseErr c).draws = s.draws + 1 := rfl

end raiseErr

section resetBlock

variable (s : State) (b : Bool)

@[simp] theorem State.resetBlock_params : (s.resetBlock b).params = s.params := rfl
@[simp] theorem State.resetBlock_inReset : (s.resetBlock b).inReset = b := rfl
@[simp] theorem State.resetBlock_busy : (s.resetBlock b).busy = false := rfl
@[simp] theorem State.resetBlock_haz : (s.resetBlock b).haz = false := rfl
@[simp] theorem State.resetBlock_err : (s.resetBlock b).err = 0 := rfl
@[simp] theorem State.resetBlock_errInfo : (s.resetBlock b).errInfo = 0 := rfl
@[simp] theorem State.resetBlock_latch : (s.resetBlock b).latch = 0 := rfl
@[simp] theorem State.resetBlock_regs : (s.resetBlock b).regs = Regs.zeros := rfl
@[simp] theorem State.resetBlock_keys : (s.resetBlock b).keys = resetKeys s.draws s.params.nKeys 0 := rfl
@[simp] theorem State.resetBlock_pulseCount : (s.resetBlock b).pulseCount = 0 := rfl
@[simp] theorem State.resetBlock_pb : (s.resetBlock b).pb = [] := rfl
@[simp] theorem State.resetBlock_pbDraw : (s.resetBlock b).pbDraw = s.draws := rfl
@[simp] theorem State.resetBlock_port : (s.resetBlock b).port = s.port := rfl
@[simp] theorem State.resetBlock_replies : (s.resetBlock b).replies = s.replies := rfl
@[simp] theorem State.resetBlock_draws : (s.resetBlock b).draws = s.draws + 1 := rfl

end resetBlock

end Sys2Proof.Machine
end

