-- ==== Sys2Proof/Laws/Synth.lean ====
section
/-! SUPPORT. The synthesizer at 38 kHz: no tie in the cycle boundaries, boundaries 26 or 27 µs apart, so that the loop never
fails; and how many Pulses each expansion has. -/

namespace Sys2Proof.Machine

open Sys2Proof

theorem carrierOn_eq (tie : Tie) : carrierOn tie = 9 := by cases tie <;> decide

/-- Away from a tie the rounding rule does not matter. -/
theorem roundRat_of_no_tie (tie : Tie) {num den : Nat} (h : 2 * (num % den) ≠ den) :
    roundRat tie num den = num / den + if den < 2 * (num % den) then 1 else 0 := by
  unfold roundRat
  by_cases hlt : den < 2 * (num % den)
  · simp [hlt]
  · simp [hlt, show 2 * (num % den) < den by omega]

/-- `T(m)` without the rounding rule: 1000·m/38 never lies half way (R152). -/
theorem cycleEnd_eq (tie : Tie) (m : Nat) : cycleEnd tie m = (1000 * m + 19) / 38 := by
  have h : cycleEnd tie m = roundRat tie (m * 1000) 38 := rfl
  rw [h, roundRat_of_no_tie tie (by omega)]
  split <;> omega

theorem cycleEnd_succ (tie : Tie) (m : Nat) :
    cycleEnd tie (m + 1) = cycleEnd tie m + 26 ∨ cycleEnd tie (m + 1) = cycleEnd tie m + 27 := by
  simp only [cycleEnd_eq]
  omega

/-- The loop, started on the grid, gives one sub-pulse a cycle, each off the distance of two boundaries less the on time. -/
theorem synthLoop_ok (tie : Tie) (n c : Nat) :
    synthLoop tie n c (cycleEnd tie c) =
      .ok ((List.range n).map fun j => subPulse tie (cycleEnd tie (c + j + 1) - (cycleEnd tie (c + j) + 9))) := by
  induction n generalizing c with
  | zero => rfl
  | succ n ih =>
    have hs := cycleEnd_succ tie c
    have hlt : ¬ cycleEnd tie (c + 1) < cycleEnd tie c + carrierOn tie := by rw [carrierOn_eq]; omega
    have hon : cycleEnd tie c + carrierOn tie + (cycleEnd tie (c + 1) - (cycleEnd tie c + carrierOn tie)) =
        cycleEnd tie (c + 1) := by omega
    simp only [synthLoop, hlt, if_false, hon, ih]
    rw [List.range_succ_eq_map]
    simp [carrierOn_eq, Nat.add_assoc, Nat.add_comm 1, Function.comp_def]

/-- `Synth(on)` never fails, and its sub-pulses are given by the cycle boundaries (R146). -/
theorem synth_ok (tie : Tie) (on : Word) :
    synth tie on =
      .ok ((List.range (cycles tie on.toNat)).map fun j => subPulse tie (cycleEnd tie (j + 1) - (cycleEnd tie j + 9))) := by
  have h := synthLoop_ok tie (cycles tie on.toNat) 0
  have h0 : cycleEnd tie 0 = 0 := by rw [cycleEnd_eq]
  rw [h0] at h
  simpa [synth] using h

theorem synth_length {tie : Tie} {on : Word} {seq : List Pulse} (h : synth tie on = .ok seq) :
    seq.length = cycles tie on.toNat := by
  rw [synth_ok] at h
  cases h
  simp

theorem expandSym_ok (tie : Tie) (p : Pulse) :
    ∃ seq, expandSym tie p = .ok seq ∧ seq.length = cycles tie p.on.toNat + 1 := by
  simp [expandSym, synth_ok]

/-- The loop of GEN never fails, and `genCount` counts its Pulses. -/
theorem genLoop_ok (p : Params) (startEn : Bool) (j : Nat) (syms : List Pulse) :
    ∃ seq, genLoop p startEn j syms = .ok seq ∧ seq.length = genCount p startEn j syms := by
  induction syms generalizing j with
  | nil => exact ⟨[], rfl, rfl⟩
  | cons sym rest ih =>
    obtain ⟨more, hm, hl⟩ := ih (j + 1)
    obtain ⟨one, ho, hol⟩ := expandSym_ok p.roundTie sym
    by_cases hp : passedThrough p startEn j = true
    · exact ⟨[sym] ++ more, by simp [genLoop, hp, hm], by simp [genCount, hp, hl]; omega⟩
    · exact ⟨one ++ more, by simp [genLoop, hp, hm, ho], by simp [genCount, hp, hl, hol]⟩

end Sys2Proof.Machine
end

