-- ==== Sys2Proof/Laws/Ops.lean ====
section
/-! SUPPORT. One lemma for each shared operation that says all it can do, the form of the memories (every operation keeps
it), and the inversion lemmas of exec and step that later proofs cite. -/

namespace Sys2Proof.Machine

open Sys2Proof

/-! ### The key table and the pulse buffer -/

theorem State.keyAt_setKey {s : State} {k : Nat} (h : k < s.keys.length) (e : KeyEntry) (j : Nat) :
    (s.setKey k e).keyAt j = if j = k then e else s.keyAt j := by
  by_cases hj : j = k
  · subst hj; simp [State.keyAt, List.getD, h]
  · simp [State.keyAt, List.getD, hj, Ne.symm hj]

theorem State.pbAt_storePulses_lt (s : State) (seq : List Pulse) {i : Nat} (h : i < seq.length) :
    (s.storePulses seq).pbAt i = seq[i] := by
  simp [State.pbAt, List.getD, List.getElem?_append_left h, h]

theorem State.pbAt_storePulses_ge (s : State) (seq : List Pulse) {i : Nat} (h : seq.length ≤ i) :
    (s.storePulses seq).pbAt i = s.pbAt i := by
  simp [State.pbAt, List.getD, List.getElem?_append_right h, Nat.add_sub_cancel' h]

/-! ### How a command ends -/

/-- The error outcome is that of R172. -/
theorem State.raiseErr_outcome (s : State) (c : Cause) : ErrorOutcome s (s.raiseErr c) c.code c.info := by
  simp [ErrorOutcome, State.SameInputs]

/-- All that `Complete(seq)` can do: CAPACITY, or the output stored (R173). -/
theorem State.complete_cases (s : State) (seq : List Pulse) :
    (s.params.pulseCap < seq.length ∧ s.complete seq = s.raiseErr .outputTooLong) ∨
      (seq.length ≤ s.params.pulseCap ∧
        s.complete seq = ((s.storePulses seq).setCount (BitVec.ofNat 32 seq.length)).setResult 0 0) := by
  unfold State.complete
  split
  · exact .inl ⟨‹_›, rfl⟩
  · exact .inr ⟨by omega, rfl⟩

theorem State.complete_of_le {s : State} {seq : List Pulse} (h : seq.length ≤ s.params.pulseCap) :
    s.complete seq = ((s.storePulses seq).setCount (BitVec.ofNat 32 seq.length)).setResult 0 0 := by
  rw [State.complete, if_neg (by omega)]

theorem State.complete_of_lt {s : State} {seq : List Pulse} (h : s.params.pulseCap < seq.length) :
    s.complete seq = s.raiseErr .outputTooLong := by
  rw [State.complete, if_pos h]

/-- The success outcome is that of R173. -/
theorem State.complete_outcome {s : State} {seq : List Pulse} (h : seq.length ≤ s.params.pulseCap) :
    SuccessOutcome s (s.complete seq) seq := by
  rw [State.complete_of_le h]
  exact ⟨rfl, fun i hi => s.pbAt_storePulses_lt seq hi, fun i hi => s.pbAt_storePulses_ge seq hi, rfl, rfl,
    by simp [State.SameInputs]⟩

/-- Testing CAPACITY on the known number of Pulses first changes nothing (R173). -/
theorem State.finishSized_ok {s : State} {n : Nat} {f : Unit → Except Cause (List Pulse)} {seq : List Pulse}
    (hf : f () = .ok seq) (hn : seq.length = n) : s.finishSized n f = s.complete seq := by
  subst hn
  unfold State.finishSized
  split
  · rw [State.complete_of_lt ‹_›]
  · rw [hf]; rfl

/-- All that a command can do: NOP's and CLEAR's effect, an error outcome, or a sequence of Pulses completed. -/
theorem exec_cases (i : Instr) (s : State) :
    (i = .nop ∧ exec i s = .next (s.setResult 0 0)) ∨
    (i = .clear ∧ exec i s = .next ((s.setCount 0).setResult 0 0)) ∨
    (∃ c, exec i s = .next (s.raiseErr c)) ∨ ∃ seq, exec i s = .next (s.complete seq) := by
  cases i with
  | nop => exact .inl ⟨rfl, rfl⟩
  | clear => exact .inr (.inl ⟨rfl, rfl⟩)
  | frame k =>
    refine .inr (.inr ?_)
    simp only [exec, execFrame]
    cases checkFrame k s with
    | some c => exact .inl ⟨c, rfl⟩
    | none => exact .inr ⟨_, rfl⟩
  | gen k =>
    refine .inr (.inr ?_)
    simp only [exec, execGen]
    cases checkFrame k s with
    | some c => exact .inl ⟨c, rfl⟩
    | none =>
      obtain ⟨seq, hs, hl⟩ := genLoop_ok s.params s.regs.present.startEn 0 (symbols k s)
      exact .inr ⟨seq, congrArg Host.Outcome.next (State.finishSized_ok (f := fun _ => genLoop _ _ 0 _) hs hl)⟩
  | synth =>
    refine .inr (.inr (.inr ?_))
    have hs := synth_ok s.params.roundTie s.regs.argOn
    exact ⟨_, congrArg Host.Outcome.next (State.finishSized_ok (f := fun _ => synth _ _) hs (by simp))⟩
  | expand =>
    refine .inr (.inr (.inr ?_))
    obtain ⟨seq, hs, hl⟩ := expandSym_ok s.params.roundTie { on := s.regs.argOn, off := s.regs.argOff }
    exact ⟨seq, congrArg Host.Outcome.next (State.finishSized_ok (f := fun _ => expandSym _ _) hs hl)⟩

/-! ### The form of the memories is kept -/

theorem resetKeys_length (d n k : Nat) : (resetKeys d n k).length = n := by
  induction n generalizing k with
  | zero => rfl
  | succ n ih => simp [resetKeys, ih]

theorem Memory.wf_reset : Memory.wf State.reset :=
  ⟨resetKeys_length 0 256 0, Nat.zero_le _, Nat.zero_le _⟩

theorem Memory.wf_resetBlock (s : State) (b : Bool) : Memory.wf (s.resetBlock b) :=
  ⟨by simp [resetKeys_length], by simp, by simp⟩

theorem Memory.wf_raiseErr {s : State} (c : Cause) (h : Memory.wf s) : Memory.wf (s.raiseErr c) :=
  ⟨h.1, by simp, by simp⟩

theorem Memory.wf_complete {s : State} (seq : List Pulse) (h : Memory.wf s) : Memory.wf (s.complete seq) := by
  obtain ⟨_, hc⟩ | ⟨hl, hc⟩ := s.complete_cases seq
  · rw [hc]; exact Memory.wf_raiseErr _ h
  · have h2 := h.2.1
    rw [hc]
    refine ⟨h.1, ?_, ?_⟩
    · simp; omega
    · simp only [State.setResult_pulseCount, State.setCount_pulseCount, State.setResult_pb, State.setCount_pb,
        State.storePulses_pb, BitVec.toNat_ofNat, List.length_append]
      exact Nat.le_trans (Nat.mod_le _ _) (Nat.le_add_right _ _)

theorem Memory.wf_setKey {s : State} (k : Nat) (e : KeyEntry) (h : Memory.wf s) : Memory.wf (s.setKey k e) :=
  ⟨by simpa using h.1, h.2⟩

/-- A write to a register stores into the descriptor and operand registers, into one key entry, or nowhere. -/
theorem State.writeReg_cases (s : State) (v : Word) (r : Reg) :
    s.writeReg v r = s ∨ (∃ g, s.writeReg v r = s.setRegs g) ∨ ∃ k e, s.writeReg v r = s.setKey k e := by
  cases r with
  | kflags k => exact .inr (.inr ⟨k, _, rfl⟩)
  | kvalLo k => exact .inr (.inr ⟨k, _, rfl⟩)
  | kvalHi k => exact .inr (.inr ⟨k, _, rfl⟩)
  | cmd => exact .inl rfl
  | status => exact .inl rfl
  | errInfo => exact .inl rfl
  | pulseCount => exact .inl rfl
  | pulseCap => exact .inl rfl
  | keyCount => exact .inl rfl
  | carrier => exact .inl rfl
  | pon i => exact .inl rfl
  | poff i => exact .inl rfl
  | reserved => exact .inl rfl
  | present => exact .inr (.inl ⟨_, rfl⟩)
  | pcfg => exact .inr (.inl ⟨_, rfl⟩)
  | gap => exact .inr (.inl ⟨_, rfl⟩)
  | startOn => exact .inr (.inl ⟨_, rfl⟩)
  | startOff => exact .inr (.inl ⟨_, rfl⟩)
  | stopOn => exact .inr (.inl ⟨_, rfl⟩)
  | stopOff => exact .inr (.inl ⟨_, rfl⟩)
  | zeroOn => exact .inr (.inl ⟨_, rfl⟩)
  | zeroOff => exact .inr (.inl ⟨_, rfl⟩)
  | oneOn => exact .inr (.inl ⟨_, rfl⟩)
  | oneOff => exact .inr (.inl ⟨_, rfl⟩)
  | hdrLo => exact .inr (.inl ⟨_, rfl⟩)
  | hdrHi => exact .inr (.inl ⟨_, rfl⟩)
  | ftrLo => exact .inr (.inl ⟨_, rfl⟩)
  | ftrHi => exact .inr (.inl ⟨_, rfl⟩)
  | argOn => exact .inr (.inl ⟨_, rfl⟩)
  | argOff => exact .inr (.inl ⟨_, rfl⟩)

/-- All that a host write can do to the state (R67, R190): nothing while the reset input is asserted; else clear or set HAZ,
latch a command, or store a register. -/
theorem State.memWrite_cases (s : State) (a : Nat) (v : Word) :
    (s.inReset = true ∧ s.memWrite a v = s) ∨ s.inReset = false ∧ (
    (a = 0x004 ∧ v.getLsbD 1 = true ∧ s.memWrite a v = s.setHaz false) ∨
    (a = 0x004 ∧ v.getLsbD 1 = false ∧ s.memWrite a v = s) ∨
    (a ≠ 0x004 ∧ s.busy = true ∧ s.memWrite a v = s.setHaz true) ∨
    (a = 0x000 ∧ s.busy = false ∧ s.memWrite a v = (s.setLatch v).setBusy true) ∨
    (a ≠ 0x004 ∧ a ≠ 0x000 ∧ s.busy = false ∧ s.memWrite a v = s.writeReg v (regAt s.params a))) := by
  cases hr : s.inReset with
  | true => exact .inl ⟨rfl, by simp [State.memWrite, hr]⟩
  | false =>
    refine .inr ⟨rfl, ?_⟩
    by_cases h4 : a = 0x004
    · subst h4
      cases hv : v.getLsbD 1 <;> simp only [State.memWrite, hr, hv] <;> simp
    · cases hb : s.busy with
      | true => simp [State.memWrite, hr, h4, hb]
      | false =>
        by_cases h0 : a = 0x000
        · simp [State.memWrite, hr, h0, hb]
        · simp [State.memWrite, hr, h4, h0, hb]

theorem Memory.wf_memWrite {s : State} (a : Nat) (v : Word) (h : Memory.wf s) : Memory.wf (s.memWrite a v) := by
  obtain ⟨_, e⟩ | ⟨_, ⟨_, _, e⟩ | ⟨_, _, e⟩ | ⟨_, _, e⟩ | ⟨_, _, e⟩ | ⟨_, _, _, e⟩⟩ := s.memWrite_cases a v
  · rw [e]; exact h
  · rw [e]; exact h
  · rw [e]; exact h
  · rw [e]; exact h
  · rw [e]; exact h
  · rw [e]
    obtain e | ⟨g, e⟩ | ⟨k, x, e⟩ := s.writeReg_cases v (regAt s.params a)
    · rw [e]; exact h
    · rw [e]; exact h
    · rw [e]; exact Memory.wf_setKey k x h

/-- All that the reset input can do: the reset values at the new level, or nothing when it is released and was not
asserted (R190). -/
theorem State.setReset_cases (s : State) (b : Bool) :
    ((b = true ∨ s.inReset = true) ∧ s.setReset b = s.resetBlock b) ∨
      (b = false ∧ s.inReset = false ∧ s.setReset b = s) := by
  cases b <;> cases hr : s.inReset <;> simp [State.setReset, hr]

theorem Memory.wf_setReset {s : State} (b : Bool) (h : Memory.wf s) : Memory.wf (s.setReset b) := by
  obtain ⟨_, e⟩ | ⟨_, _, e⟩ := s.setReset_cases b
  · rw [e]; exact Memory.wf_resetBlock s b
  · rw [e]; exact h

/-- No key is defined after a reset. -/
theorem resetKeys_not_valid (d n k : Nat) : ∀ e ∈ resetKeys d n k, e.valid = false := by
  induction n generalizing k with
  | zero => simp [resetKeys]
  | succ n ih =>
    intro e he
    obtain rfl | he := List.mem_cons.1 he
    · rfl
    · exact ih _ e he

/-- The block after a reset is at the reset values of R41. -/
theorem State.resetWith_atReset (p : Params) (d : Nat) : (State.resetWith p d).AtReset := by
  refine ⟨rfl, rfl, rfl, rfl, rfl, rfl, rfl, fun k => ?_⟩
  show ((resetKeys d p.nKeys 0).getD k _).valid = false
  rw [List.getD_eq_getElem?_getD]
  cases h : (resetKeys d p.nKeys 0)[k]? with
  | none => rfl
  | some e => exact resetKeys_not_valid _ _ _ e (List.mem_of_getElem? h)

/-- So is the block that the reset input resets, whatever state it was in. -/
theorem State.resetBlock_atReset (s : State) (b : Bool) : (s.resetBlock b).AtReset :=
  State.resetWith_atReset s.params s.draws

/-! ### What a step can do -/

/-- All that the engine's turn can do: perform the command, take the illegal outcome, or nothing while idle (R200). -/
theorem engineStep_cases (s : State) :
    (s.busy = true ∧ ∃ i t, decode s.latch = .ok i ∧ exec i s = .next t ∧ engineStep s = .next (t.setBusy false)) ∨
    (s.busy = true ∧ ∃ r, decode s.latch = .error r ∧ engineStep s = .next ((s.raiseErr (.illegal r)).setBusy false)) ∨
    (s.busy = false ∧ engineStep s = .next s) := by
  cases hb : s.busy with
  | false => exact .inr (.inr ⟨rfl, by simp [engineStep, hb]⟩)
  | true =>
    cases hd : decode s.latch with
    | error r => exact .inr (.inl ⟨rfl, r, rfl, by simp [engineStep, hb, hd, clearBusy]⟩)
    | ok i =>
      obtain ⟨_, h⟩ | ⟨_, h⟩ | ⟨c, h⟩ | ⟨seq, h⟩ := exec_cases i s <;>
        exact .inl ⟨rfl, i, _, rfl, h, by simp [engineStep, hb, hd, h, clearBusy]⟩

/-- All that an admitted read can do: return the register, or a free value while BUSY = 1 (R66, R203). -/
theorem State.hostRead_cases (s : State) (off bytes : Nat) :
    (admitted off bytes = true ∧ s.hostRead off bytes = .next (s.reply (s.readReg (regAt s.params off)))) ∨
    (admitted off bytes = true ∧ s.busy = true ∧ (regAt s.params off).hiddenWhileBusy = true ∧
      s.hostRead off bytes = .next (s.drawn.reply (Config.freeWord s.draws off))) ∨
    (admitted off bytes = false ∧ s.hostRead off bytes = .refused (.accessOutsideInterface off bytes)) := by
  cases ha : admitted off bytes with
  | false => exact .inr (.inr ⟨rfl, by simp [State.hostRead, ha]⟩)
  | true =>
    cases hb : s.busy && (regAt s.params off).hiddenWhileBusy with
    | false => exact .inl ⟨rfl, by simp [State.hostRead, ha, State.memRead, hb]⟩
    | true =>
      have h2 := Bool.and_eq_true_iff.mp hb
      exact .inr (.inl ⟨rfl, h2.1, h2.2, by simp [State.hostRead, ha, State.memRead, hb]⟩)

/-- All that a step with a next state can do, by the input it takes. -/
theorem step_cases {s t : State} (h : step s = .next t) :
    ((s.port = [] ∧ engineStep s = .next t) ∨
      ∃ rest, s.port = .engine :: rest ∧ engineStep (s.setPort rest) = .next t) ∨
    (∃ a n rest, s.port = .read a n :: rest ∧ admitted a n = true ∧ (s.setPort rest).hostRead a n = .next t) ∨
    (∃ a v rest, s.port = .write a 4 v :: rest ∧ admitted a 4 = true ∧ t = (s.setPort rest).memWrite a v) ∨
    ∃ b rest, s.port = .reset b :: rest ∧ t = (s.setPort rest).setReset b := by
  unfold step at h
  cases hp : s.port with
  | nil => rw [hp] at h; exact .inl (.inl ⟨rfl, h⟩)
  | cons e rest =>
    rw [hp] at h
    cases e with
    | engine => exact .inl (.inr ⟨rest, rfl, h⟩)
    | reset b => exact .inr (.inr (.inr ⟨b, rest, rfl, by simpa [handle, eq_comm] using h⟩))
    | read a n =>
      refine .inr (.inl ⟨a, n, rest, rfl, ?_, h⟩)
      cases ha : admitted a n with
      | true => rfl
      | false => simp [handle, State.hostRead, ha] at h
    | write a n v =>
      cases ha : admitted a n with
      | false => simp [handle, State.hostWrite, ha] at h
      | true =>
        have hn : n = 4 := by simp [admitted] at ha; exact ha.1.1
        subst hn
        exact .inr (.inr (.inl ⟨a, v, rest, rfl, ha, by simpa [handle, State.hostWrite, ha, eq_comm] using h⟩))

end Sys2Proof.Machine
end

