-- ==== Sys2Proof/Laws/RegMap.lean ====
section
/-! SUPPORT. Which register each offset of the window names, said once by ranges (10_state.md R22). -/

namespace Sys2Proof.Machine

open Sys2Proof

theorem lookup_cons_getD (a b : Nat) (r d : Reg) (rows : List (Nat × Reg)) :
    (((b, r) :: rows).lookup a).getD d = if a = b then r else (rows.lookup a).getD d := by
  by_cases h : a = b
  · simp [h]
  · simp [h, List.lookup_cons, beq_eq_false_iff_ne.mpr h]

/-- The control region, offset by offset. -/
theorem controlMap_lookup (a : Nat) : (controlMap.lookup a).getD .reserved =
    if a = 0x000 then .cmd else if a = 0x004 then .status else if a = 0x008 then .errInfo
    else if a = 0x010 then .present else if a = 0x014 then .pcfg else if a = 0x018 then .gap
    else if a = 0x020 then .startOn else if a = 0x024 then .startOff else if a = 0x028 then .stopOn
    else if a = 0x02C then .stopOff else if a = 0x030 then .zeroOn else if a = 0x034 then .zeroOff
    else if a = 0x038 then .oneOn else if a = 0x03C then .oneOff else if a = 0x040 then .hdrLo
    else if a = 0x044 then .hdrHi else if a = 0x048 then .ftrLo else if a = 0x04C then .ftrHi
    else if a = 0x050 then .argOn else if a = 0x054 then .argOff else if a = 0x058 then .pulseCount
    else if a = 0x05C then .pulseCap else if a = 0x060 then .keyCount else if a = 0x064 then .carrier else .reserved := by
  simp only [controlMap, lookup_cons_getD]
  rfl

theorem mem_of_lookup {a : Nat} {r : Reg} {rows : List (Nat × Reg)} (h : rows.lookup a = some r) : (a, r) ∈ rows := by
  induction rows with
  | nil => simp at h
  | cons row rows ih =>
    by_cases ha : a = row.1
    · rw [List.lookup_cons, beq_iff_eq.mpr ha] at h
      simp [ha, ← Option.some.inj h]
    · rw [List.lookup_cons, beq_eq_false_iff_ne.mpr ha] at h
      exact List.mem_cons_of_mem _ (ih h)

/-- A property of reserved offsets and of every row of the control region holds of every offset there. -/
theorem regAt_control_induction {p : Params} {a : Nat} (h : a < 0x1000) (P : Nat → Reg → Prop)
    (rows : ∀ row ∈ controlMap, P row.1 row.2) (reserved : P a .reserved) : P a (regAt p a) := by
  rw [regAt, if_pos h]
  cases hl : controlMap.lookup a with
  | none => exact reserved
  | some r => exact rows _ (mem_of_lookup hl)

/-- Offsets below 0x1000 are the control region. -/
theorem regAt_control {p : Params} {a : Nat} (h : a < 0x1000) : regAt p a = (controlMap.lookup a).getD .reserved := by
  rw [regAt, if_pos h]

/-- The word at byte m of key-table entry k. -/
theorem regAt_key {p : Params} {k m : Nat} (hk : k < p.nKeys) (hm : m < 16) : regAt p (0x1000 + 16 * k + m) = keyReg k m := by
  rw [regAt, if_neg (by omega), if_pos (by omega)]
  congr 1 <;> omega

/-- The rest of the key region is reserved. -/
theorem regAt_above_keys {p : Params} {a : Nat} (h : 0x1000 + 16 * p.nKeys ≤ a) (h' : a < 0x10000) : regAt p a = .reserved := by
  by_cases hc : a < 0x1000
  · omega
  · rw [regAt, if_neg hc, if_neg (by omega), if_pos h']

/-- PON(i) and POFF(i) stand at 0x10000 + 8·i and 0x10004 + 8·i (R36). -/
theorem regAt_pulse {p : Params} (hp : p.wf) {i : Nat} (hi : i < p.pulseCap) :
    regAt p (0x10000 + 8 * i) = .pon i ∧ regAt p (0x10004 + 8 * i) = .poff i := by
  have h1 := hp.2.1
  constructor
  · rw [regAt, if_neg (by omega), if_neg (by omega), if_neg (by omega), if_pos (by omega), if_pos (by omega)]
    congr 1; omega
  · rw [regAt, if_neg (by omega), if_neg (by omega), if_neg (by omega), if_pos (by omega), if_neg (by omega)]
    congr 1; omega

/-- The rest of the pulse window is reserved. -/
theorem regAt_above_pulses {p : Params} (hp : p.wf) {a : Nat} (h : 0x10000 + 8 * p.pulseCap ≤ a) : regAt p a = .reserved := by
  have h1 := hp.2.1
  rw [regAt, if_neg (by omega), if_neg (by omega), if_neg (by omega), if_neg (by omega)]

end Sys2Proof.Machine
end

