-- ==== Sys2Proof/Laws/Access.lean ====
section
/-! SUPPORT. Reading a register after a write to one: the written register gives the bits it defines, every other register
gives what it gave (20_memory.md R66, R67). -/

namespace Sys2Proof.Machine

open Sys2Proof

/-- The registers a host write stores into (R22). -/
def Reg.writable : Reg → Bool
  | .cmd | .status | .errInfo | .pulseCount | .pulseCap | .keyCount | .carrier | .pon _ | .poff _ | .reserved => false
  | .present | .pcfg | .gap | .startOn | .startOff | .stopOn | .stopOff | .zeroOn | .zeroOff | .oneOn | .oneOff => true
  | .hdrLo | .hdrHi | .ftrLo | .ftrHi | .argOn | .argOff | .kflags _ | .kvalLo _ | .kvalHi _ => true

/-- The bits a writable register stores (R26, R27, R35). -/
def Reg.definedBits : Reg → Word
  | .present => 0x3F
  | .pcfg => 0xFFFFFF01
  | .kflags _ => 1
  | _ => 0xFFFFFFFF

/-- The key entry a register belongs to. -/
def Reg.keyIndex : Reg → Option Nat
  | .kflags k | .kvalLo k | .kvalHi k => some k
  | _ => none

/-- Where a register stands in the window (R22). -/
def Reg.offset : Reg → Nat
  | .kflags k => 0x1000 + 16 * k
  | .kvalLo k => 0x1004 + 16 * k
  | .kvalHi k => 0x1008 + 16 * k
  | .pon i => 0x10000 + 8 * i
  | .poff i => 0x10004 + 8 * i
  | r => ((controlMap.find? (fun row => row.2 == r)).map Prod.fst).getD 0

/-- PRESENT keeps bits [5:0] of what is written (R26). -/
theorem Present.toWord_ofWord (v : Word) : (Present.ofWord v).toWord = v &&& 0x3F := by
  simp only [Present.ofWord, Present.toWord]
  apply BitVec.eq_of_getLsbD_eq; intro i hi
  simp only [BitVec.getLsbD_append, BitVec.getLsbD_and]
  have : i < 32 := hi
  interval_cases i <;> simp

/-- PCFG keeps bits [31:8] and bit 0 of what is written (R27). -/
theorem Pcfg.toWord_ofWord (v : Word) : (Pcfg.ofWord v).toWord = v &&& 0xFFFFFF01 := by
  simp only [Pcfg.ofWord, Pcfg.toWord]
  apply BitVec.eq_of_getLsbD_eq; intro i hi
  simp only [BitVec.getLsbD_append, BitVec.getLsbD_and, BitVec.getLsbD_extractLsb']
  have : i < 32 := hi
  interval_cases i <;> simp

/-- KFLAGS keeps bit 0 of what is written (R35). -/
theorem kflags_mask (v : Word) : (if v.getLsbD 0 then 1 else 0 : Word) = v &&& 1 := by
  apply BitVec.eq_of_getLsbD_eq; intro i hi
  simp only [BitVec.getLsbD_and]
  interval_cases i <;> cases h : v.getLsbD 0 <;> simp_all

theorem and_all_ones (v : Word) : v &&& 0xFFFFFFFF = v := BitVec.and_allOnes

/-- Reading after a write, for every pair of registers. -/
theorem State.readReg_writeReg (s : State) (v : Word) (r r' : Reg) (hw : r.writable = true) (hk : ∀ k, r.keyIndex = some k → k < s.keys.length) :
    (s.writeReg v r).readReg r' = if r' = r then v &&& r.definedBits else s.readReg r' := by
  cases hr : r.keyIndex with
  | some k =>
    have hk := hk k hr
    by_cases e : r' = r
    · subst e
      cases r' <;> simp [Reg.keyIndex] at hr <;> subst hr <;> simp [State.writeReg, State.readReg, Reg.definedBits, State.keyAt_setKey hk]
      · exact kflags_mask v
      · exact (and_all_ones v).symm
      · exact (and_all_ones v).symm
    · rw [if_neg e]
      cases r <;> simp [Reg.keyIndex] at hr <;> subst hr <;> cases r' <;> simp [State.writeReg, State.readReg, State.keyAt_setKey hk, statusWord, errInfoWord, State.visiblePulse, State.pbAt] at e ⊢
      all_goals (try split) <;> simp_all
  | none =>
    cases r <;> simp [Reg.writable, Reg.keyIndex] at hw hr <;> cases r' <;>
      simp [State.writeReg, State.readReg, Reg.definedBits, Present.toWord_ofWord, Pcfg.toWord_ofWord, statusWord, errInfoWord, State.visiblePulse, State.pbAt, State.keyAt]
    all_goals exact (and_all_ones v).symm

/-- An offset that names a register is that register's offset, so two offsets name one register only if they are equal. -/
theorem Reg.offset_regAt {p : Params} (hp : p.wf) {a : Nat} (h4 : a % 4 = 0) (h : regAt p a ≠ .reserved) : (regAt p a).offset = a := by
  by_cases h1 : a < 0x1000
  · revert h
    refine regAt_control_induction h1 (fun a r => r ≠ .reserved → r.offset = a) (by decide) (by simp)
  · have := hp.2.1
    by_cases h2 : a < 0x1000 + 16 * p.nKeys
    · obtain ⟨k, m, hm, rfl⟩ : ∃ k m, m < 16 ∧ a = 0x1000 + 16 * k + m := ⟨(a-0x1000)/16, (a-0x1000)%16, by omega, by omega⟩
      rw [regAt_key (by omega) hm] at h ⊢
      unfold keyReg at h ⊢
      split <;> rename_i h0
      · simp [Reg.offset]; omega
      · split
        · simp [Reg.offset]; omega
        · split
          · simp [Reg.offset]; omega
          · simp_all
    · by_cases h3 : a < 0x10000
      · rw [regAt_above_keys (by omega) h3] at h; simp at h
      · by_cases h5 : a < 0x10000 + 8 * p.pulseCap
        · obtain ⟨i, m, hm, rfl⟩ : ∃ k m, (m = 0 ∨ m = 4) ∧ a = 0x10000 + 8 * k + m := ⟨(a-0x10000)/8, (a-0x10000)%8, by omega, by omega⟩
          rcases hm with rfl | rfl
          · have := (regAt_pulse hp (i := i) (by omega)).1
            rw [show 0x10000 + 8 * i + 0 = 0x10000 + 8 * i from rfl, this]; rfl
          · have := (regAt_pulse hp (i := i) (by omega)).2
            rw [show 0x10000 + 8 * i + 4 = 0x10004 + 8 * i by omega, this]; rfl
        · rw [regAt_above_pulses hp (by omega)] at h; simp at h

/-- Two offsets that name one register are equal. -/
theorem regAt_injective {p : Params} (hp : p.wf) {a b : Nat} (ha : a % 4 = 0) (hb : b % 4 = 0)
    (h : regAt p a ≠ .reserved) (e : regAt p a = regAt p b) : a = b := by
  rw [← Reg.offset_regAt hp ha h, ← Reg.offset_regAt hp hb (e ▸ h), e]

end Sys2Proof.Machine
end

