-- ==== Sys2Proof/Laws/Decode.lean ====
section
/-! SUPPORT. The fields of a word and of an encoded word as numbers, and the byte lanes of a word. -/

namespace Sys2Proof

theorem opField_toNat (w : Word) : (opField w).toNat = w.toNat % 2 ^ 8 := by
  simp [opField, BitVec.extractLsb'_toNat]

theorem keyField_toNat (w : Word) : (keyField w).toNat = w.toNat / 2 ^ 8 % 2 ^ 8 := by
  simp [keyField, BitVec.extractLsb'_toNat, Nat.shiftRight_eq_div_pow]

theorem rsvField_toNat (w : Word) : (rsvField w).toNat = w.toNat / 2 ^ 16 := by
  have h := w.isLt
  simp only [rsvField, BitVec.extractLsb'_toNat, Nat.shiftRight_eq_div_pow]
  omega

/-- A concatenation as a number: the high part times the low part's range, plus the low part. -/
theorem append_toNat {m n : Nat} (a : BitVec m) (b : BitVec n) : (a ++ b).toNat = a.toNat * 2 ^ n + b.toNat := by
  rw [BitVec.toNat_append, ← Nat.shiftLeft_add_eq_or_of_lt b.isLt, Nat.shiftLeft_eq]

/-- The command word as a number: the opcode, and the key index in bits [15:8] (R81). -/
theorem encode_toNat (i : Instr) : (encode i).toNat = i.opcode.toNat + 2 ^ 8 * (i.key % 2 ^ 8) := by
  have h : (encode i).toNat = ((0#16 ++ BitVec.ofNat 8 i.key) ++ i.opcode).toNat := rfl
  rw [h, append_toNat, append_toNat, BitVec.toNat_ofNat, BitVec.toNat_ofNat]
  omega

/-- The value of a word's four lanes (R63). -/
theorem wordOfLanes_toNat (b0 b1 b2 b3 : Byte) :
    (wordOfLanes b0 b1 b2 b3).toNat = b0.toNat + 2 ^ 8 * b1.toNat + 2 ^ 16 * b2.toNat + 2 ^ 24 * b3.toNat := by
  have h : (wordOfLanes b0 b1 b2 b3).toNat = (((b3 ++ b2) ++ b1) ++ b0).toNat := rfl
  rw [h, append_toNat, append_toNat, append_toNat]
  omega

/-- Bit 8j + n of a word is bit n of lane j: the four lanes of a word make it again. -/
theorem wordOfLanes_lanesOfWord (w : Word) :
    wordOfLanes (w.extractLsb' 0 8) (w.extractLsb' 8 8) (w.extractLsb' 16 8) (w.extractLsb' 24 8) = w := by
  have h := w.isLt
  apply BitVec.eq_of_toNat_eq
  rw [wordOfLanes_toNat]
  simp only [BitVec.extractLsb'_toNat, Nat.shiftRight_eq_div_pow]
  omega

/-- Decoding the four lanes of a word is decoding the word. -/
theorem decodeBytes_lanesOfWord (w : Word) (rest : List Byte) :
    decodeBytes (lanesOfWord w ++ rest) =
      match decode w with
      | .ok i => .ok (i, rest)
      | .error r => .error (.illegal r) := by
  have e := wordOfLanes_lanesOfWord w
  cases h : decode w <;> simp [lanesOfWord, decodeBytes, e, h]

end Sys2Proof
end

