-- ==== Sys2Proof/Laws/PerInstr.lean ====
section
/-! SUPPORT. One lemma per constructor about the instruction as syntax: the word of a well-formed command fits its row of
the opcode map. -/

namespace Sys2Proof.Laws.OpcodeRow

open Sys2Proof

/-- The command's word has the command's opcode in bits [7:0], its key index in bits [15:8], and nothing above. -/
def Statement (i : Instr) : Prop :=
  i.WellFormed = true →
    (encode i).toNat % 2 ^ 8 = i.opcode.toNat ∧ (encode i).toNat / 2 ^ 8 % 2 ^ 8 = i.key ∧ (encode i).toNat / 2 ^ 16 = 0

theorem nop : Statement .nop := fun _ => by decide

theorem clear : Statement .clear := fun _ => by decide

theorem frame (k : Nat) : Statement (.frame k) := by
  intro h
  have hk : k < 256 := by simpa [Instr.WellFormed] using h
  simp only [encode_toNat, Instr.opcode, Instr.key]
  omega

theorem gen (k : Nat) : Statement (.gen k) := by
  intro h
  have hk : k < 256 := by simpa [Instr.WellFormed] using h
  simp only [encode_toNat, Instr.opcode, Instr.key]
  omega

theorem synth : Statement .synth := fun _ => by decide

theorem expand : Statement .expand := fun _ => by decide

end Sys2Proof.Laws.OpcodeRow
end

