-- ==== Sys2Proof/Laws/Reads.lean ====
section
/-! SUPPORT. What a command reads and what it leaves for the host to read, said once: the outcome depends on nothing but the
parameters, the descriptor and operand registers, the key table and, for NOP, the output already there (R39, R65). -/

namespace Sys2Proof.Machine

open Sys2Proof

/-- The two states agree on all that a command reads. -/
structure SameReads (s t : State) : Prop where
  params : t.params = s.params
  regs : t.regs = s.regs
  keys : t.keys = s.keys
  pulseCount : t.pulseCount = s.pulseCount
  pb : t.pb = s.pb
  pbDraw : t.pbDraw = s.pbDraw

/-- The two states show the host the same result and the same output. -/
structure SameOutcome (s t : State) : Prop where
  err : t.err = s.err
  errInfo : t.errInfo = s.errInfo
  pulseCount : t.pulseCount = s.pulseCount
  visible : ∀ i, t.visiblePulse i = s.visiblePulse i

/-- A command always ends in a next state. -/
theorem exec_next (i : Instr) (s : State) : ∃ t, exec i s = .next t := by
  obtain ⟨_, e⟩ | ⟨_, e⟩ | ⟨_, e⟩ | ⟨_, e⟩ := exec_cases i s <;> exact ⟨_, e⟩

theorem SameOutcome.raiseErr (s t : State) (c) : SameOutcome (s.raiseErr c) (t.raiseErr c) :=
  ⟨rfl, rfl, rfl, fun i => by simp [State.visiblePulse]⟩

theorem SameReads.complete {s t} (h : SameReads s t) (seq) : SameOutcome (s.complete seq) (t.complete seq) := by
  unfold State.complete
  rw [h.params]
  split
  · exact SameOutcome.raiseErr s t _
  · exact ⟨rfl, rfl, rfl, fun i => by simp [State.visiblePulse, State.pbAt, h.pb, h.pbDraw]⟩

theorem SameReads.finishSized {s t} (h : SameReads s t) (n f) : SameOutcome (s.finishSized n f) (t.finishSized n f) := by
  unfold State.finishSized
  rw [h.params]
  split
  · exact SameOutcome.raiseErr s t _
  · cases f () with
    | error c => exact SameOutcome.raiseErr s t _
    | ok seq => exact h.complete seq

theorem SameReads.check {s t : State} (h : SameReads s t) (k) : checkFrame k t = checkFrame k s := by
  simp [checkFrame, State.keyMissing, State.keyAt, h.regs, h.keys, h.params]

theorem SameReads.symbols {s t : State} (h : SameReads s t) (k) : symbols k t = symbols k s := by
  simp [Sys2Proof.Machine.symbols, dataSymbols, State.keyAt, h.regs, h.keys]

/-- Commands that read the same give the same outcome. -/
theorem SameReads.exec {s t s'} (h : SameReads s t) (i) (he : exec i s = .next s') : ∃ t', exec i t = .next t' ∧ SameOutcome s' t' := by
  cases i with
  | nop => cases he; exact ⟨_, rfl, rfl, rfl, h.pulseCount, fun i => by simp [State.visiblePulse, State.pbAt, h.pb, h.pbDraw, h.pulseCount]⟩
  | clear => cases he; exact ⟨_, rfl, rfl, rfl, rfl, fun i => by simp [State.visiblePulse]⟩
  | frame k =>
    simp only [Sys2Proof.Machine.exec, execFrame] at he ⊢
    rw [h.check]
    cases hc : checkFrame k s with
    | some c => rw [hc] at he; cases he; exact ⟨_, rfl, SameOutcome.raiseErr s t _⟩
    | none => rw [hc] at he; cases he; exact ⟨_, rfl, by rw [h.symbols]; exact h.complete _⟩
  | gen k =>
    simp only [Sys2Proof.Machine.exec, execGen] at he ⊢
    rw [h.check, h.regs, h.params, h.symbols]
    cases hc : checkFrame k s with
    | some c => rw [hc] at he; cases he; exact ⟨_, rfl, SameOutcome.raiseErr s t _⟩
    | none => rw [hc] at he; cases he; exact ⟨_, rfl, h.finishSized _ _⟩
  | synth =>
    simp only [Sys2Proof.Machine.exec, execSynth] at he ⊢
    rw [h.regs, h.params]; cases he; exact ⟨_, rfl, h.finishSized _ _⟩
  | expand =>
    simp only [Sys2Proof.Machine.exec, execExpand] at he ⊢
    rw [h.regs, h.params]; cases he; exact ⟨_, rfl, h.finishSized _ _⟩

end Sys2Proof.Machine
end

