-- ==== Sys2Proof/Tests/Slice0.lean ====
section
/-! SUPPORT. The model's own tests. Every expected value comes from spec/: the encodings of 30_encoding.md R81 and R83 and the
vectors of 95_test_vectors.md, each named where it is used. The second half shows, for every statement with hypotheses,
inputs that meet them all, at the boundaries of their ranges. -/

namespace Sys2Proof.Tests

open Sys2Proof Sys2Proof.Machine

/-! ### Helpers -/

/-- A Pulse. -/
def pulse (on off : Nat) : Pulse := { on := BitVec.ofNat 32 on, off := BitVec.ofNat 32 off }

/-- The block after reset, with the registers of base descriptor B (95_test_vectors.md V-FRM) and key `k` holding `code`. -/
def remote (p : Params) (present pcfg : Word) (k : Nat) (code : DWord) : State :=
  { State.resetWith p 0 with
    regs := { Regs.zeros with
      present := Present.ofWord present, pcfg := Pcfg.ofWord pcfg
      start := pulse 2400 590, zero := pulse 590 590, one := pulse 1200 590 }
    keys := (List.replicate p.nKeys { valid := false, lo := 0, hi := 0 }).set k
      { valid := true, lo := code.extractLsb' 0 32, hi := code.extractLsb' 32 32 } }

/-- The block after reset with four keys, the given operands, and inputs pending. -/
def withArgs (on off : Word) (port : List PortEvent := []) : State :=
  { State.resetWith { Params.spec with nKeys := 4 } 0 with
    regs := { Regs.zeros with argOn := on, argOff := off }, port := port }

/-- The same block with a word latched. -/
def latched (w : Word) (port : List PortEvent := []) : State :=
  { withArgs 40 100 port with latch := w, busy := true }

/-- ERR, ERRINFO and PULSE_COUNT at the end. -/
def result : Host.Outcome State Fault Refusal → Option (Nat × Nat × Nat)
  | .next s => some (s.err.toNat, s.errInfo.toNat, s.pulseCount.toNat)
  | .fault _ => none
  | .refused _ => none

/-- The first `n` entries of the pulse window at the end. -/
def output (n : Nat) : Host.Outcome State Fault Refusal → List Pulse
  | .next s => (List.range n).map s.visiblePulse
  | .fault _ => []
  | .refused _ => []

/-- What the host has read at the end. -/
def replies : Host.Outcome State Fault Refusal → Option (List Word)
  | .next s => some s.replies
  | .fault _ => none
  | .refused _ => none

/-- BUSY and HAZ at the end. -/
def flags : Host.Outcome State Fault Refusal → Option (Bool × Bool)
  | .next s => some (s.busy, s.haz)
  | .fault _ => none
  | .refused _ => none

/-! ### Well-formedness: the one check, and a term it refuses -/

theorem test_key_index_255_is_well_formed :
    (Instr.frame 255).WellFormed = true ∧ (Instr.gen 255).WellFormed = true := by decide

theorem test_key_index_256_is_ill_formed :
    (Instr.frame 256).WellFormed = false ∧ (Instr.gen 256).WellFormed = false := by decide

/-! ### Decoding: words written out bit by bit (R81, R83), bit 31 on the left -/

theorem test_decode_nop : decode 0b00000000000000000000000000000000 = .ok .nop := by decide
theorem test_decode_clear : decode 0b00000000000000000000000000000001 = .ok .clear := by decide
theorem test_decode_frame : decode 0b00000000000000001010010100000010 = .ok (.frame 0xA5) := by decide
theorem test_decode_gen : decode 0b00000000000000000000010100000011 = .ok (.gen 5) := by decide
theorem test_decode_synth : decode 0b00000000000000000000000000000100 = .ok .synth := by decide
theorem test_decode_expand : decode 0b00000000000000000000000000000101 = .ok .expand := by decide

/-- V-DEC-1 to V-DEC-9. -/
theorem test_decode_illegal :
    decode 0x00000006 = .error .undefinedOpcode ∧ decode 0x000000FF = .error .undefinedOpcode ∧
    decode 0x00010006 = .error .undefinedOpcode ∧ decode 0x00010002 = .error .reservedNotZero ∧
    decode 0x80000000 = .error .reservedNotZero ∧ decode 0x00000100 = .error .keyNotTaken ∧
    decode 0x00000504 = .error .keyNotTaken ∧ decode 0x00000701 = .error .keyNotTaken ∧
    decode 0x00000305 = .error .keyNotTaken := by decide

/-- R63 and R87: the byte lanes of GEN 5, 0x00000503, lane 0 first; three bytes are no word. -/
theorem test_decode_bytes :
    decodeBytes [0x03, 0x05, 0x00, 0x00, 0x77] = .ok (.gen 5, [0x77]) ∧ decodeBytes [0x03, 0x05, 0x00] = .error .tooShort := by
  decide

theorem test_decode_table_words :
    decodeTableWord 32 0x00000702 = some (.frame 7) ∧ decodeTableWord 32 0x00000504 = none ∧
      decodeTableWord 8 0x05 = some .expand := by decide

/-- R87: `GEN 5` is 0x00000503 and `FRAME 0` is 0x00000002. -/
theorem test_encode : encode (.gen 5) = 0x00000503 ∧ encode (.frame 0) = 0x00000002 ∧
    encodeBytes (.frame 7) = [0x02, 0x07, 0x00, 0x00] := by decide

/-! ### Field values and bit order (V-BIT, L1-3, L1-4) -/

theorem test_fits : fits 0 0 = true ∧ fits 1 0 = false ∧ fits 63 6 = true ∧ fits 0xFF 6 = false ∧
    fits 0xFFFFFFFFFFFFFFFF 64 = true := by decide

theorem test_bit_list : bitList 0x4D 8 = [false, true, false, false, true, true, false, true] ∧
    bitList 0x5 8 = [false, false, false, false, false, true, false, true] := by decide

theorem test_tx_bits : txBits true 0x4D 8 = [true, false, true, true, false, false, true, false] ∧
    txBits false 0xA 4 = [true, false, true, false] ∧ txBits true 0xA 4 = [false, true, false, true] ∧
    txBits true 0x1 2 = [true, false] ∧ txBits true 0x7 0 = [] := by decide

/-- L1-4: the value to store for bits 1,0,1,1,0,0,1,0. -/
theorem test_stored_value : storedValue true [true, false, true, true, false, false, true, false] = 0x4D ∧
    storedValue false [true, false, true, true, false, false, true, false] = 0xB2 := by decide

/-- L1-3: the hex form at W = 5 is "1F", at W = 6 "05", at W = 0 "". -/
theorem test_hex_form : hexForm 0x1F 5 = [1, 15] ∧ hexForm 5 6 = [0, 5] ∧ hexForm 0 0 = [] := by decide

/-! ### The commands, one step each -/

/-- V-CTL-1 and V-CTL-2. -/
theorem test_nop :
    result (exec .nop { withArgs 0 0 with pulseCount := 9 }) = some (0, 0, 9) ∧
      result (exec .nop { withArgs 0 0 with err := 1, errInfo := 5 }) = some (0, 0, 0) := by decide

/-- V-CTL-4: HAZ is kept, ERR cleared. -/
theorem test_clear :
    result (exec .clear { withArgs 0 0 with haz := true, err := 2, errInfo := 1, pulseCount := 9 }) = some (0, 0, 0) ∧
      flags (exec .clear { withArgs 0 0 with haz := true }) = some (false, true) := by decide

/-- L1-1. -/
theorem test_frame_scenario :
    output 10 (exec (.frame 0) (remote Params.spec 0x0D 0x00080000 0 0x4D)) =
      [pulse 2400 590, pulse 590 590, pulse 1200 590, pulse 590 590, pulse 590 590, pulse 1200 590, pulse 1200 590,
        pulse 590 590, pulse 1200 590, pulse 0 0] := by decide +kernel

/-- V-FRM-1, 3, 4, 6, 8, 9, 10, 11, 13, 14: each check, and the order of two that fail together. -/
theorem test_frame_checks :
    result (exec (.frame 0) (remote Params.spec 0x00 0x00080000 0 0x4D)) = some (3, 1, 0) ∧
    result (exec (.frame 0) (remote Params.spec 0x08 0x00080000 0 0x4D)) = some (3, 1, 0) ∧
    result (exec (.frame 0) (remote Params.spec 0x0C 0x00084100 9 0x4D)) = some (3, 3, 0) ∧
    result (exec (.frame 0) (remote Params.spec 0x0C 0xFF080000 0 0x4D)) = some (3, 5, 0) ∧
    result (exec (.frame 3) { remote Params.spec 0x1C 0x00080400 0 0x4D with
      regs := { (remote Params.spec 0x1C 0x00080400 0 0x4D).regs with hdrLo := 0x1F } }) = some (2, 1, 0) ∧
    result (exec (.frame 3) { remote Params.spec 0x2C 0x02080000 0 0x4D with
      regs := { (remote Params.spec 0x2C 0x02080000 0 0x4D).regs with ftrLo := 0x4 } }) = some (1, 3, 0) ∧
    result (exec (.frame 0) { remote Params.spec 0x2C 0x02080000 0 0x100 with
      regs := { (remote Params.spec 0x2C 0x02080000 0 0x100).regs with ftrLo := 0x4 } }) = some (2, 2, 0) ∧
    result (exec (.frame 0) { remote Params.spec 0x2C 0x02080000 0 0x4D with
      regs := { (remote Params.spec 0x2C 0x02080000 0 0x4D).regs with ftrLo := 0x4 } }) = some (2, 3, 0) ∧
    result (exec (.frame 0) (remote Params.spec 0x0C 0x00000000 0 0)) = some (0, 0, 0) ∧
    result (exec (.frame 0) (remote Params.spec 0x0C 0x00000000 0 1)) = some (2, 2, 0) := by decide +kernel

/-- V-FRM-20 and V-FRM-21. -/
theorem test_gen_counts :
    result (exec (.gen 0) (remote Params.spec 0x0D 0x00080000 0 0x4D)) = some (0, 0, 372) ∧
      result (exec (.gen 0) (remote { Params.spec with startModulated := false } 0x0D 0x00080000 0 0x4D)) =
        some (0, 0, 281) := by decide +kernel

/-- V-FRM-21 and P2: the start pair passed through, then the first sub-pulses of bit 0 and its space Pulse. -/
theorem test_gen_start_passed_through :
    (output 25 (exec (.gen 0) (remote { Params.spec with startModulated := false } 0x0D 0x00080000 0 0x4D))).take 3 =
        [pulse 2400 590, pulse 9 17, pulse 9 18] ∧
      (output 25 (exec (.gen 0) (remote { Params.spec with startModulated := false } 0x0D 0x00080000 0 0x4D))).drop 22 =
        [pulse 9 17, pulse 0 590, pulse 9 17] := by decide +kernel

/-- V-CAR-1 to V-CAR-6 and V-CAR-10. -/
theorem test_synth_counts :
    result (exec .synth (withArgs 13 0)) = some (0, 0, 0) ∧ result (exec .synth (withArgs 14 0)) = some (0, 0, 1) ∧
    result (exec .synth (withArgs 750 0)) = some (0, 0, 29) ∧
    result (exec .synth { withArgs 750 0 with params := { Params.spec with roundTie := .halfEven } }) = some (0, 0, 28) ∧
    output 5 (exec .synth (withArgs 100 0)) = [pulse 9 17, pulse 9 18, pulse 9 17, pulse 9 17, pulse 0 0] := by
  decide +kernel

/-- V-CAR-17 and V-CAR-18: CAPACITY. -/
theorem test_synth_capacity :
    result (exec .synth (withArgs 215593 0)) = some (4, 0, 0) ∧ result (exec .synth (withArgs 0xFFFFFFFF 0)) = some (4, 0, 0) := by
  decide +kernel

/-- V-CAR-20, 22, 23 and 26. -/
theorem test_expand :
    output 4 (exec .expand (withArgs 40 100)) = [pulse 9 17, pulse 9 18, pulse 0 100, pulse 0 0] ∧
    result (exec .expand (withArgs 13 0)) = some (0, 0, 1) ∧
    output 2 (exec .expand (withArgs 14 0xFFFFFFFF)) = [pulse 9 17, pulse 0 4294967295] ∧
    result (exec .expand (withArgs 215566 0)) = some (4, 0, 0) := by decide +kernel

/-! ### Steps: the engine, the bus and reset -/

/-- P6: EXPAND, latched, is performed by the next step, which clears BUSY. -/
theorem test_fetch_word_runs_next :
    result (step ((withArgs 40 100).withFetchWord 32 0x00000005)) = some (0, 0, 3) ∧
      flags (step ((withArgs 40 100).withFetchWord 32 0x00000005)) = some (false, false) := by decide +kernel

/-- V-DEC-1 and V-DEC-4 (P8): an illegal word clears the output. -/
theorem test_illegal_words :
    result (step { latched 0x00000006 with pulseCount := 9 }) = some (5, 1, 0) ∧
      result (step { latched 0x00010002 with pulseCount := 9 }) = some (5, 2, 0) := by decide

/-- V-BUS-2, V-BUS-3 and V-BUS-4: the defined bits of PRESENT, PCFG and KFLAGS. -/
theorem test_write_stores_defined_bits :
    (((withArgs 0 0).memWrite 0x010 0xFFFFFFFF).memRead 0x010).1 = 0x0000003F ∧
    (((withArgs 0 0).memWrite 0x014 0xFFFFFFFF).memRead 0x014).1 = 0xFFFFFF01 ∧
    (((withArgs 0 0).memWrite 0x1000 0xFFFFFFFF).memRead 0x1000).1 = 0x00000001 := by decide +kernel

/-- V-BUS-5, V-BUS-6 and V-BUS-7: reserved offsets. -/
theorem test_reserved_offsets :
    replies (step { State.reset with port := [.read 0x100C 4] }) = some [0] ∧
    replies (step { State.reset with port := [.read 0x2000 4] }) = some [0] ∧
    replies (step { State.reset with port := [.read 0x0FFC 4] }) = some [0] := by decide +kernel

/-- V-RST-1 and V-RST-2. -/
theorem test_reset_reads :
    replies (step { State.reset with port := [.read 0x004 4] }) = some [0] ∧
    replies (step { State.reset with port := [.read 0x058 4] }) = some [0] ∧
    replies (step { State.reset with port := [.read 0x05C 4] }) = some [0x00002000] ∧
    replies (step { State.reset with port := [.read 0x060 4] }) = some [0x00000100] ∧
    replies (step { State.reset with port := [.read 0x064 4] }) = some [0x00020926] := by decide +kernel

/-- V-HAZ-1, V-HAZ-2 and V-HAZ-5. -/
theorem test_hazards :
    flags (step (latched 3 [.write 0x030 4 700])) = some (true, true) ∧
    flags (step (latched 3 [.write 0x000 4 1])) = some (true, true) ∧
    flags (step { latched 3 [.write 0x004 4 2] with haz := true }) = some (true, false) ∧
    flags (step { latched 3 [.write 0x004 4 0xFFFFFFFD] with haz := true }) = some (true, true) := by decide +kernel

/-- V-RST-8: a reset while BUSY = 1 discards the command. -/
theorem test_reset_discards :
    flags (step (latched 3 [.reset true])) = some (false, false) ∧ result (step (latched 3 [.reset true])) = some (0, 0, 0) := by
  decide +kernel

/-- R190: a write to PRESENT and one to CMD, made while the reset input is asserted, leave the reset values and HAZ = 0. -/
theorem test_write_while_reset_is_held :
    (({ withArgs 0 0 with inReset := true }.memWrite 0x010 0x3F).memRead 0x010).1 = 0 ∧
      flags (step { withArgs 0 0 [.write 0x000 4 3] with inReset := true }) = some (false, false) := by decide +kernel

/-- V-BUS-19: a 16-bit access and an access at offset 0x002 are refused. -/
theorem test_refused_accesses :
    step (latched 3 [.read 0x004 2]) = .refused (.accessOutsideInterface 0x004 2) ∧
      step (latched 3 [.write 0x002 4 0]) = .refused (.accessOutsideInterface 0x002 4) := by
  exact ⟨rfl, rfl⟩

/-! ### Witnesses: inputs that meet the hypotheses of each statement, at the boundaries of its clauses -/

/-- The reset state of a block with four keys is legal, whatever is pending. -/
theorem test_small_block_is_legal (on off : Word) (port : List PortEvent) : (withArgs on off port).Inv :=
  ⟨show ({ Params.spec with nKeys := 4 } : Params).wf by decide, ⟨resetKeys_length _ _ _, Nat.zero_le _, Nat.zero_le _⟩, .inl ⟨rfl, rfl⟩,
    fun h => absurd rfl h, nofun⟩

/-- So is the block with a word latched. -/
theorem test_latched_block_is_legal (w : Word) (port : List PortEvent) : (latched w port).Inv :=
  ⟨show ({ Params.spec with nKeys := 4 } : Params).wf by decide, ⟨resetKeys_length _ _ _, Nat.zero_le _, Nat.zero_le _⟩, .inl ⟨rfl, rfl⟩,
    fun h => absurd rfl h, nofun⟩

/-- `FrameOk` from a conjunction that can be decided. -/
theorem frameOk_of {k : Nat} {s : State} (h : s.regs.present.zeroValid = true ∧ s.regs.present.oneValid = true ∧
    s.regs.pcfg.hdrSize.toNat ≤ 64 ∧ s.regs.pcfg.dataSize.toNat ≤ 64 ∧ s.regs.pcfg.ftrSize.toNat ≤ 64 ∧
    (s.regs.present.hdrEn = true → s.regs.hdr.toNat < 2 ^ s.regs.pcfg.hdrSize.toNat) ∧ k < s.params.nKeys ∧
    (s.keyAt k).valid = true ∧ (s.keyAt k).val.toNat < 2 ^ s.regs.pcfg.dataSize.toNat ∧
    (s.regs.present.ftrEn = true → s.regs.ftr.toNat < 2 ^ s.regs.pcfg.ftrSize.toNat)) : FrameOk k s := by
  obtain ⟨h1, h2, h3, h4, h5, h6, h7, h8, h9, h10⟩ := h
  exact ⟨h1, h2, h3, h4, h5, h6, h7, h8, h9, h10⟩

/-- Every check passes at the widest sizes and the largest index: key 255, header, data and footer of 64 bits, all enabled. -/
def widest : State :=
  { remote Params.spec 0x3D 0x40404000 255 0xFFFFFFFFFFFFFFFF with
    regs := { (remote Params.spec 0x3D 0x40404000 255 0xFFFFFFFFFFFFFFFF).regs with
      hdrLo := 0xFFFFFFFF, hdrHi := 0xFFFFFFFF, ftrLo := 0xFFFFFFFF, ftrHi := 0xFFFFFFFF } }

theorem test_witness_frame_ok_widest : FrameOk 255 widest := frameOk_of (by decide +kernel)

/-- Every check passes at the smallest: nothing enabled, no data bits, value 0. -/
def emptyFrame (p : Params) : State := remote p 0x0C 0x00000000 0 0

theorem test_witness_frame_ok_empty : FrameOk 0 (emptyFrame Params.spec) := frameOk_of (by decide +kernel)

/-- L1-1 with a pulse buffer of `cap` entries. -/
def scenario (cap : Nat) (startModulated : Bool := true) : State :=
  remote { Params.spec with pulseCap := cap, startModulated := startModulated } 0x0D 0x00080000 0 0x4D

theorem test_witness_frame_ok_scenario :
    FrameOk 0 (scenario 9) ∧ FrameOk 0 (scenario 8) ∧ FrameOk 0 (scenario 281) ∧ FrameOk 0 (scenario 281 false) :=
  ⟨frameOk_of (by decide +kernel), frameOk_of (by decide +kernel), frameOk_of (by decide +kernel),
    frameOk_of (by decide +kernel)⟩

theorem test_witness_EncodeOfDecodeIsTheWord : decode 0x0000FF02 = .ok (.frame 255) ∧ decode 0x00000005 = .ok .expand := by decide

theorem test_witness_OpcodeRowsAreDisjointAndDecode :
    ∃ r ∈ opcodeRows, r.selects 0x0000FF03 = true ∧ decode 0x0000FF03 = .ok (.gen 255) := by decide

/-- The least illegal OP, the greatest legal one, and both reasons for ILLEGAL 2. -/
theorem test_witness_IllegalWordEndsWithIllegal :
    (∀ w : Word, (latched w).busy = true ∧ (latched w).port = []) ∧
    5 < (latched 0x06).latch.toNat % 2 ^ 8 ∧ 5 < (latched 0xFF).latch.toNat % 2 ^ 8 ∧
    (latched 0x00010005).latch.toNat % 2 ^ 8 ≤ 5 ∧ (latched 0x00010005).latch.toNat / 2 ^ 16 ≠ 0 ∧
    (latched 0x00000105).latch.toNat % 2 ^ 8 = 5 ∧ (latched 0x00000105).latch.toNat / 2 ^ 8 % 2 ^ 8 ≠ 0 :=
  ⟨fun _ => ⟨rfl, rfl⟩, by decide⟩

theorem test_witness_StepPerformsTheLatchedCommand :
    (latched 4).port = [] ∧ (latched 4).busy = true ∧ decode (latched 4).latch = .ok .synth ∧
    (latched 6 [.engine]).port = .engine :: [] ∧ (latched 6 [.engine]).busy = true ∧
    decode (latched 6 [.engine]).latch = .error .undefinedOpcode ∧
    (withArgs 0 0 [.engine, .reset true]).port = .engine :: [.reset true] ∧ (withArgs 0 0).busy = false := by decide

theorem test_witness_FieldRoundTrips :
    (0 : DWord).toNat < 2 ^ 0 ∧ (0x3F : DWord).toNat < 2 ^ 6 ∧ (0xFFFFFFFFFFFFFFFF : DWord).toNat < 2 ^ 64 := by decide

theorem test_witness_StoredValueIsSentInItsOrder :
    ([] : List Bool).length ≤ 64 ∧ (List.replicate 64 true).length ≤ 64 := by decide

theorem test_witness_LsbReversesEachFieldAlone :
    (remote Params.spec 0x3C 0x02080401 3 0x4D).regs.pcfg.firstBit = true := by decide

/-- A state for each check of FRAME and GEN that the registers' bits decide, with the checks before it passed. -/
theorem test_witness_FrameChecksInOrder :
    (remote Params.spec 0x08 0x00080000 0 0x4D).regs.present.zeroValid = false ∧
    ((remote Params.spec 0x04 0x00080000 0 0x4D).regs.present.zeroValid = true ∧
      (remote Params.spec 0x04 0x00080000 0 0x4D).regs.present.oneValid = false) ∧
    ((remote Params.spec 0x0C 0x00084100 0 0x4D).regs.present.zeroValid = true ∧
      (remote Params.spec 0x0C 0x00084100 0 0x4D).regs.present.oneValid = true ∧
      (remote Params.spec 0x0C 0x00084100 0 0x4D).regs.pcfg.hdrSize = 65) ∧
    ((remote Params.spec 0x0C 0x00414000 0 0x4D).regs.pcfg.hdrSize = 64 ∧
      (remote Params.spec 0x0C 0x00414000 0 0x4D).regs.pcfg.dataSize = 65) ∧
    ((remote Params.spec 0x0C 0x41404000 0 0x4D).regs.pcfg.dataSize = 64 ∧
      (remote Params.spec 0x0C 0x41404000 0 0x4D).regs.pcfg.ftrSize = 65) := by decide +kernel

/-- Base descriptor B with header and footer of 4 and 2 bits, both enabled, in a block with four keys of which key 3 is
defined. -/
def checked (hdr ftr : Word) (code : DWord) : State :=
  { remote { Params.spec with nKeys := 4 } 0x3C 0x02080400 3 code with
    regs := { (remote { Params.spec with nKeys := 4 } 0x3C 0x02080400 3 code).regs with hdrLo := hdr, ftrLo := ftr } }

/-- And for each check that values decide: the least header, code and footer that do not fit, the least index past the table,
an undefined key. -/
theorem test_witness_FrameChecksInOrder_values :
    ((checked 0x10 0x4 0x100).regs.present.zeroValid = true ∧ (checked 0x10 0x4 0x100).regs.present.oneValid = true ∧
      (checked 0x10 0x4 0x100).regs.pcfg.hdrSize = 4 ∧ (checked 0x10 0x4 0x100).regs.pcfg.dataSize = 8 ∧
      (checked 0x10 0x4 0x100).regs.pcfg.ftrSize = 2) ∧
    ((checked 0x10 0x4 0x100).regs.present.hdrEn = true ∧
      2 ^ (checked 0x10 0x4 0x100).regs.pcfg.hdrSize.toNat ≤ (checked 0x10 0x4 0x100).regs.hdr.toNat) ∧
    ¬ 2 ^ (checked 0xF 0x4 0x100).regs.pcfg.hdrSize.toNat ≤ (checked 0xF 0x4 0x100).regs.hdr.toNat ∧
    (checked 0xF 0x4 0x100).params.nKeys ≤ 4 ∧ ((checked 0xF 0x4 0x100).keyAt 2).valid = false ∧
    (3 < (checked 0xF 0x4 0x100).params.nKeys ∧ ((checked 0xF 0x4 0x100).keyAt 3).valid = true ∧
      2 ^ (checked 0xF 0x4 0x100).regs.pcfg.dataSize.toNat ≤ ((checked 0xF 0x4 0x100).keyAt 3).val.toNat) ∧
    (((checked 0xF 0x4 0xFF).keyAt 3).val.toNat < 2 ^ (checked 0xF 0x4 0xFF).regs.pcfg.dataSize.toNat ∧
      (checked 0xF 0x4 0xFF).regs.present.ftrEn = true ∧
      2 ^ (checked 0xF 0x4 0xFF).regs.pcfg.ftrSize.toNat ≤ (checked 0xF 0x4 0xFF).regs.ftr.toNat) := by decide +kernel

theorem test_witness_FrameOutputsTheSymbols :
    (framePulses 0 (scenario 9)).length ≤ (scenario 9).params.pulseCap ∧
      (scenario 8).params.pulseCap < (framePulses 0 (scenario 8)).length := by decide +kernel

theorem test_witness_GenOutputsTheExpandedFrame :
    (frameExpansion (scenario 281 false).params true (framePulses 0 (scenario 281 false))).length ≤ 281 ∧
      281 < (frameExpansion (scenario 281).params true (framePulses 0 (scenario 281))).length := by decide +kernel

theorem test_witness_SynthDurationWithinThirteen : synth .halfUp 14 = .ok [pulse 9 17] := by decide +kernel

theorem test_witness_ShortIntervalsGiveFewCycles :
    (13 : Word).toNat ≤ 13 ∧ 14 ≤ (14 : Word).toNat ∧ (39 : Word).toNat ≤ 39 ∧
      (withArgs 0xFFFFFFFF 0).params.wf ∧ (withArgs 0xFFFFFFFF 0).regs.argOn = 0xFFFFFFFF := by decide

theorem test_witness_SynthOutputsTheCarrier :
    cycles .halfUp (withArgs 215592 0).regs.argOn.toNat ≤ (withArgs 215592 0).params.pulseCap ∧
      (withArgs 215593 0).params.pulseCap < cycles .halfUp (withArgs 215593 0).regs.argOn.toNat := by decide +kernel

theorem test_witness_ExpandOutputsTheSymbol :
    (carrierPulses (cycles .halfUp (14 : Word).toNat) ++ [pulse 0 0]).length ≤ 2 ∧
      2 < (carrierPulses (cycles .halfUp (40 : Word).toNat) ++ [pulse 0 0]).length := by decide +kernel

theorem test_witness_CapacityThresholdsOfTheCarrier : (withArgs 215593 0).params.pulseCap = 8192 := by decide

theorem test_witness_CarrierCommandsReadOnlyTheirOperands :
    widest.regs.argOn = (withArgs 0 0).regs.argOn ∧ widest.regs.argOff = (withArgs 0 0).regs.argOff := by decide +kernel

theorem test_witness_CommandsLeaveTheHostsStateAlone :
    ∃ t, exec .clear (scenario 9) = .next t ∧ (0x000 < 0x10000 ∨ 0x10000 + 8 * (scenario 9).params.pulseCap ≤ 0x10048) :=
  ⟨_, rfl, .inl (by decide)⟩

/-- Some command does end with an error. -/
theorem test_witness_FailedCommandShowsNoOutput : result (exec (.gen 5) (scenario 9)) = some (1, 5, 0) := by decide +kernel

theorem test_witness_EmptyOutputIsASuccess :
    (emptyFrame Params.spec).regs.present.startEn = false ∧ (emptyFrame Params.spec).regs.present.hdrEn = false ∧
      (emptyFrame Params.spec).regs.present.ftrEn = false ∧ (emptyFrame Params.spec).regs.pcfg.dataSize = 0 ∧
      (withArgs 13 0).regs.argOn.toNat ≤ 13 := by decide +kernel

/-- The block with a pulse buffer of eight entries: the offsets from 0x10040 on are reserved. -/
def smallBuffer (busy : Bool) (port : List PortEvent) : State :=
  { withArgs 0 0 port with params := { Params.spec with nKeys := 4, pulseCap := 8 }, busy := busy }

/-- An offset of each region, first and last, with BUSY = 0 and BUSY = 1; and the reserved offsets above a small buffer. -/
theorem test_witness_HostReadReturnsTheRegister :
    (∀ a ∈ [0x000, 0x058, 0x064, 0x068, 0x0FFC, 0x1000, 0x103C, 0x1040, 0xFFFC, 0x10000, 0x1FFFC],
      (withArgs 0 0 [.read a 4]).params.wf ∧ a % 4 = 0 ∧ a < 0x20000 ∧ (withArgs 0 0 [.read a 4]).port = .read a 4 :: []) ∧
    (withArgs 0 0).busy = false ∧ (latched 3).busy = true ∧
    ∀ a ∈ [0x1003C, 0x10040, 0x1FFFC], (smallBuffer false [.read a 4]).params.wf ∧ a % 4 = 0 ∧ a < 0x20000 ∧
      (smallBuffer false [.read a 4]).busy = false ∧ (smallBuffer false [.read a 4]).port = .read a 4 :: [] ∧
      (0x10000 + 8 * (smallBuffer false [.read a 4]).params.pulseCap ≤ a ↔ a ≠ 0x1003C) := by decide

theorem test_witness_BusyReadsOfTheOutputAreFree :
    (∀ a ∈ [0x058, 0x10000, 0x1FFFC], (latched 3 [.read a 4]).params.wf ∧ (latched 3 [.read a 4]).busy = true ∧ a % 4 = 0 ∧
      (latched 3 [.read a 4]).port = .read a 4 :: [] ∧
      (a = 0x058 ∨ 0x10000 ≤ a ∧ a < 0x10000 + 8 * (latched 3 [.read a 4]).params.pulseCap)) ∧
    ∀ a ∈ [0x1003C, 0x10040, 0x1FFFC], (smallBuffer true [.read a 4]).params.wf ∧ a % 4 = 0 ∧ a < 0x20000 ∧
      (smallBuffer true [.read a 4]).busy = true ∧ (smallBuffer true [.read a 4]).port = .read a 4 :: [] ∧
      (0x10000 + 8 * (smallBuffer true [.read a 4]).params.pulseCap ≤ a ↔ a ≠ 0x1003C) := by decide

/-- STATUS, CMD, a write while BUSY = 1, the first and the last writable offset of each region, and offsets beside them. -/
theorem test_witness_HostWriteStoresTheDefinedBits :
    (∀ a ∈ [0x000, 0x004, 0x008, 0x010, 0x01C, 0x054, 0x058, 0x1000, 0x100C, 0x1038, 0x1040, 0x1FFFC],
      a % 4 = 0 ∧ a < 0x20000 ∧ (withArgs 0 0 [.write a 4 1]).port = .write a 4 1 :: [] ∧
        (withArgs 0 0 [.write a 4 1]).inReset = false ∧ (withArgs 0 0 [.write a 4 1]).busy = false ∧
        (latched 3 [.write a 4 1]).busy = true) ∧
    (∀ a ∈ [0x010, 0x054, 0x1000, 0x1038], 0x010 ≤ a ∧ a ≤ 0x054 ∧ a ≠ 0x01C ∨
      0x1000 ≤ a ∧ a < 0x1000 + 16 * (withArgs 0 0).params.nKeys ∧ a % 16 ≠ 12) ∧
    ∀ a ∈ [0x008, 0x01C, 0x058, 0x100C, 0x1040, 0x1FFFC], ¬ (0x010 ≤ a ∧ a ≤ 0x054 ∧ a ≠ 0x01C ∨
      0x1000 ≤ a ∧ a < 0x1000 + 16 * (withArgs 0 0).params.nKeys ∧ a % 16 ≠ 12) := by decide

theorem test_witness_CmdWriteLatchesTheCommand :
    (withArgs 0 0 [.write 0x000 4 3]).inReset = false ∧ (withArgs 0 0 [.write 0x000 4 3]).busy = false ∧ (latched 3 [.write 0x000 4 1]).busy = true ∧
      (withArgs 0 0 [.read 0x000 4]).port = .read 0x000 4 :: [] := by decide

theorem test_witness_StatusWriteClearsHazOnly :
    (latched 3 [.write 0x004 4 2]).inReset = false ∧ (latched 3 [.write 0x004 4 2]).port = .write 0x004 4 2 :: [] := by decide

/-- Both clauses: a write while BUSY = 1, and a step that clears HAZ. -/
theorem test_witness_BusyWriteIsIgnoredAndSetsHaz :
    (∀ a, (latched 3 [.write a 4 2]).Inv) ∧
    (∀ a ∈ [0x000, 0x004, 0x1FFFC], (latched 3 [.write a 4 2]).busy = true ∧ a % 4 = 0 ∧ a < 0x20000 ∧
      (latched 3 [.write a 4 2]).port = .write a 4 2 :: []) ∧
    ∃ t, step { latched 3 [.write 0x004 4 2] with haz := true } = .next t ∧ t.haz = false :=
  ⟨fun _ => test_latched_block_is_legal _ _, by decide, _, rfl, rfl⟩

theorem test_witness_OtherAccessesAreRefused :
    (∀ x ∈ [(0x004, 2), (0x002, 4), (0x20000, 4)], x.2 ≠ 4 ∨ x.1 % 4 ≠ 0 ∨ 0x20000 ≤ x.1) ∧
      (withArgs 0 0 [.read 0x20000 4]).port = .read 0x20000 4 :: [] ∧
      (withArgs 0 0 [.write 0x002 4 0]).port = .write 0x002 4 0 :: [] := by decide

theorem test_witness_ConstantRegistersRead :
    State.reset.params = Params.spec ∧ (withArgs 0 0 [.write 0x064 4 0]).busy = false ∧
      (withArgs 0 0 [.write 0x064 4 0]).port = .write 0x064 4 0 :: [] := by decide

/-- The last key of the small block, defined and undefined. -/
theorem test_witness_KeysAreDefinedAndUndefined :
    (withArgs 0 0 (HostProgram.setKey 3 0xFFFFFFFFFFFFFFFF)).Inv ∧ (withArgs 0 0).inReset = false ∧ (withArgs 0 0).busy = false ∧
      3 < (withArgs 0 0).params.nKeys ∧
      (withArgs 0 0 (HostProgram.setKey 3 0xFFFFFFFFFFFFFFFF)).port = HostProgram.setKey 3 0xFFFFFFFFFFFFFFFF ++ [] ∧
      (withArgs 0 0 (HostProgram.delKey 3)).Inv ∧
      (withArgs 0 0 (HostProgram.delKey 3)).port = HostProgram.delKey 3 ++ [] :=
  ⟨test_small_block_is_legal _ _ _, rfl, rfl, by decide, rfl, test_small_block_is_legal _ _ _, rfl⟩

theorem test_witness_WindowIsAlignedAtTheBase :
    0x40000 % 0x20000 = 0 ∧ windowOffset 0x40000 0x40000 = some 0 ∧ windowOffset 0x40000 0x5FFFF = some 0x1FFFF ∧
      windowOffset 0x40000 0x60000 = none ∧ windowOffset 0x40000 0x3FFFF = none := by decide

/-- The block while the reset input is held asserted. -/
def held (port : List PortEvent) : State := { withArgs 0 0 port with inReset := true }

theorem test_held_block_is_legal (port : List PortEvent) : (held port).Inv :=
  ⟨show ({ Params.spec with nKeys := 4 } : Params).wf by decide, ⟨resetKeys_length _ _ _, Nat.zero_le _, Nat.zero_le _⟩,
    .inl ⟨rfl, rfl⟩, fun h => absurd rfl h, fun _ => State.resetWith_atReset { Params.spec with nKeys := 4 } 0⟩

/-- Both levels of the input, the step that ends the reset, and a write while it is held. -/
theorem test_witness_ResetDiscardsTheCommand :
    (latched 3 [.reset true, .engine]).port = .reset true :: [.engine] ∧
    (held [.reset false]).port = .reset false :: [] ∧ (held [.reset false]).inReset = true ∧
    (held [.reset false]).Inv ∧ (∃ t, step (held [.reset false]) = .next t ∧ t.inReset = false) ∧
    (held []).Inv ∧ (∃ t, step (held []) = .next t ∧ t.inReset = true) ∧
    ∀ a ∈ [0x000, 0x004, 0x1FFFC], a % 4 = 0 ∧ a < 0x20000 ∧ (held [.write a 4 1]).port = .write a 4 1 :: [] :=
  ⟨rfl, rfl, rfl, test_held_block_is_legal _, ⟨_, rfl, rfl⟩, test_held_block_is_legal _, ⟨_, rfl, rfl⟩, by decide⟩

theorem test_witness_StepKeepsLegality :
    (latched 3 [.engine]).Inv ∧ ∃ t, step (latched 3 [.engine]) = .next t :=
  ⟨test_latched_block_is_legal _ _, _, rfl⟩

theorem test_witness_SafeStatesNeverStop : (latched 3 [.read 0x1FFFC 4, .write 0x000 4 0, .engine, .reset true, .reset false]).Safe :=
  ⟨test_latched_block_is_legal _ _, by decide⟩

/-- A read, an idle engine with nothing pending and at its turn, a write while reset is held, and a release when it is not. -/
theorem test_witness_ReadsAndIdleTurnsChangeNothing :
    (∃ t, step (latched 3 [.read 0x10000 4]) = .next t) ∧ (∃ t, step (withArgs 0 0) = .next t) ∧
      (∃ t, step (withArgs 0 0 [.engine]) = .next t) ∧ (withArgs 0 0).busy = false ∧
      (∃ t, step (held [.write 0x010 4 0x3F]) = .next t) ∧ (held [.write 0x010 4 0x3F]).inReset = true ∧
      (∃ t, step (withArgs 0 0 [.reset false]) = .next t) ∧ (withArgs 0 0 [.reset false]).inReset = false :=
  ⟨⟨_, rfl⟩, ⟨_, rfl⟩, ⟨_, rfl⟩, rfl, ⟨_, rfl⟩, rfl, ⟨_, rfl⟩, rfl⟩

/-- Steps that set and clear BUSY, set and clear HAZ, and change ERR. -/
theorem test_witness_FlagsChangeOnlyAsListed :
    flags (step (withArgs 0 0 [.write 0x000 4 3])) = some (true, false) ∧
    flags (step (latched 4)) = some (false, false) ∧
    flags (step (latched 3 [.write 0x054 4 3])) = some (true, true) ∧
    flags (step { latched 3 [.write 0x004 4 2] with haz := true }) = some (true, false) ∧
    result (step (latched 3)) = some (3, 1, 0) := by decide +kernel

theorem test_witness_HostAndEngineWriteApart :
    (∃ t, step (withArgs 0 0 [.write 0x054 4 3]) = .next t) ∧ ∃ t, step (latched 3 [.engine]) = .next t :=
  ⟨⟨_, rfl⟩, _, rfl⟩

/-- No access, and accesses of both kinds, before the engine's turn. -/
theorem test_witness_LatencyDoesNotChangeTheOutcome :
    (latched 4 ([] ++ .engine :: [.read 0x058 4])).busy = true ∧
    (∀ e ∈ [HostProgram.rd 0x10000, HostProgram.wr 0x050 750, HostProgram.wr 0x000 1], e.isHostAccess = true) ∧
    (latched 4 ([HostProgram.rd 0x10000, HostProgram.wr 0x050 750, HostProgram.wr 0x000 1] ++ .engine :: [])).port =
      [HostProgram.rd 0x10000, HostProgram.wr 0x050 750, HostProgram.wr 0x000 1] ++ .engine :: [] := by decide

theorem test_witness_RunCompletesTheCommand :
    (Instr.gen 255).WellFormed = true ∧ (withArgs 0 0 (HostProgram.run (.gen 255) 2)).busy = false ∧
      (withArgs 0 0 (HostProgram.run (.gen 255) 2)).inReset = false ∧
      (withArgs 0 0 (HostProgram.run (.gen 255) 2)).port = HostProgram.run (.gen 255) 2 ++ [] := by decide

end Sys2Proof.Tests
end

/-! ### Proofs: what a host write and a command leave unchanged

The frame of each operation, said once, for the statements about the invariant and about the flags. -/

namespace Sys2Proof.Machine

open Sys2Proof

/-! ### Host writes -/

/-- A register write changes nothing but the descriptor and operand registers and the key table. -/
theorem State.writeReg_eq (s : State) (v : Word) (r : Reg) :
    s.writeReg v r = (s.setRegs (s.writeReg v r).regs).setKeys (s.writeReg v r).keys := by
  obtain e | ⟨g, e⟩ | ⟨k, x, e⟩ := s.writeReg_cases v r <;> rw [e] <;> rfl

/-- A host write changes nothing but BUSY, HAZ, LATCH, the descriptor and operand registers and the key table (R60, R67). -/
theorem State.memWrite_eq (s : State) (a : Nat) (v : Word) :
    s.memWrite a v =
      { s with
        busy := (s.memWrite a v).busy, haz := (s.memWrite a v).haz, latch := (s.memWrite a v).latch
        regs := (s.memWrite a v).regs, keys := (s.memWrite a v).keys } := by
  obtain ⟨_, e⟩ | ⟨_, ⟨_, _, e⟩ | ⟨_, _, e⟩ | ⟨_, _, e⟩ | ⟨_, _, e⟩ | ⟨_, _, _, e⟩⟩ := s.memWrite_cases a v
  · rw [e]
  · rw [e]; rfl
  · rw [e]
  · rw [e]; rfl
  · rw [e]; rfl
  · rw [e, State.writeReg_eq]; rfl

section memWrite

variable (s : State) (a : Nat) (v : Word)

@[simp] theorem State.memWrite_params : (s.memWrite a v).params = s.params := by rw [State.memWrite_eq]
@[simp] theorem State.memWrite_inReset : (s.memWrite a v).inReset = s.inReset := by rw [State.memWrite_eq]
@[simp] theorem State.memWrite_err : (s.memWrite a v).err = s.err := by rw [State.memWrite_eq]
@[simp] theorem State.memWrite_errInfo : (s.memWrite a v).errInfo = s.errInfo := by rw [State.memWrite_eq]
@[simp] theorem State.memWrite_pulseCount : (s.memWrite a v).pulseCount = s.pulseCount := by rw [State.memWrite_eq]
@[simp] theorem State.memWrite_pb : (s.memWrite a v).pb = s.pb := by rw [State.memWrite_eq]
@[simp] theorem State.memWrite_pbDraw : (s.memWrite a v).pbDraw = s.pbDraw := by rw [State.memWrite_eq]
@[simp] theorem State.memWrite_port : (s.memWrite a v).port = s.port := by rw [State.memWrite_eq]
@[simp] theorem State.memWrite_replies : (s.memWrite a v).replies = s.replies := by rw [State.memWrite_eq]

end memWrite

/-- What a register write does to BUSY and HAZ: nothing. -/
theorem State.writeReg_flags (s : State) (v : Word) (r : Reg) :
    (s.writeReg v r).busy = s.busy ∧ (s.writeReg v r).haz = s.haz := by
  rw [State.writeReg_eq]
  exact ⟨rfl, rfl⟩

/-- While the reset input is asserted a host write does nothing (R190). -/
theorem State.memWrite_of_inReset {s : State} (h : s.inReset = true) (a : Nat) (v : Word) : s.memWrite a v = s := by
  simp [State.memWrite, h]

/-! ### Commands and the engine's turn -/

theorem State.complete_sameInputs (s : State) (seq : List Pulse) : s.SameInputs (s.complete seq) := by
  obtain ⟨_, e⟩ | ⟨_, e⟩ := s.complete_cases seq <;> rw [e] <;> simp [State.SameInputs]

/-- Whatever its outcome, a command writes none of its inputs (R60, R172). -/
theorem exec_sameInputs {i : Instr} {s t : State} (h : exec i s = .next t) : s.SameInputs t := by
  obtain ⟨_, e⟩ | ⟨_, e⟩ | ⟨c, e⟩ | ⟨seq, e⟩ := exec_cases i s <;> obtain rfl := Host.Outcome.next.inj (e.symm.trans h)
  · simp [State.SameInputs]
  · simp [State.SameInputs]
  · simp [State.SameInputs]
  · exact s.complete_sameInputs seq

/-- The engine's turn ends with BUSY = 0 and writes nothing else a command does not write (R200). -/
theorem engineStep_sameInputs {s t : State} (h : engineStep s = .next t) : (s.setBusy false).SameInputs t := by
  obtain ⟨_, i, u, _, hu, e⟩ | ⟨_, r, _, e⟩ | ⟨hb, e⟩ := engineStep_cases s <;>
    obtain rfl := Host.Outcome.next.inj (e.symm.trans h)
  · obtain ⟨hp, hr, _, hh, hl, hg, hk, hq, ha⟩ := exec_sameInputs hu
    exact ⟨hp, hr, rfl, hh, hl, hg, hk, hq, ha⟩
  · simp [State.SameInputs]
  · simp [State.SameInputs, hb]

/-- The engine's turn while BUSY = 0 changes nothing (R185). -/
theorem engineStep_of_idle {s : State} (h : s.busy = false) : engineStep s = .next s := by
  simp [engineStep, h]

/-! ### The invariant -/

/-- Every error has a pair of R171. -/
theorem Cause.resultLegal (c : Cause) : resultLegal c.code c.info := by
  cases c with
  | keyNotFound k => exact .inr (.inl rfl)
  | illegal r => cases r <;> decide
  | headerTooWide => decide
  | keyCodeTooWide => decide
  | footerTooWide => decide
  | negativeCarrierOff => decide
  | zeroPairMissing => decide
  | onePairMissing => decide
  | hdrSizeInvalid => decide
  | dataSizeInvalid => decide
  | ftrSizeInvalid => decide
  | outputTooLong => decide

/-- A legal state with a command latched has the reset input released: BUSY is 0 at the reset values. -/
theorem State.Inv.released_of_busy {s : State} (h : s.Inv) (hb : s.busy = true) : s.inReset = false := by
  cases hr : s.inReset with
  | false => rfl
  | true => exact absurd hb (by simp [(h.heldReset hr).1])

/-- Which inputs are pending is no part of legality. -/
theorem State.Inv.setPort {s : State} (h : s.Inv) (p : List PortEvent) : (s.setPort p).Inv :=
  ⟨h.params, h.memory, h.result, h.noPartialOutput, h.heldReset⟩

/-- Neither is what the host has read. -/
theorem State.Inv.reply {s : State} (h : s.Inv) (v : Word) : (s.reply v).Inv :=
  ⟨h.params, h.memory, h.result, h.noPartialOutput, h.heldReset⟩

theorem State.Inv.drawn {s : State} (h : s.Inv) : s.drawn.Inv :=
  ⟨h.params, h.memory, h.result, h.noPartialOutput, h.heldReset⟩

theorem State.Inv.setBusy_false {s : State} (h : s.Inv) : (s.setBusy false).Inv :=
  ⟨h.params, h.memory, h.result, h.noPartialOutput, fun hr => ⟨rfl, (h.heldReset hr).2⟩⟩

/-- A read answers from a legal state with a legal state. -/
theorem State.Inv.hostRead {s t : State} (h : s.Inv) {a n : Nat} (hs : s.hostRead a n = .next t) :
    t.Inv ∧ t.params = s.params := by
  obtain ⟨_, e⟩ | ⟨_, _, _, e⟩ | ⟨_, e⟩ := s.hostRead_cases a n <;> rw [e] at hs
  · cases hs; exact ⟨h.reply _, rfl⟩
  · cases hs; exact ⟨h.drawn.reply _, rfl⟩
  · cases hs

/-- A host write keeps legality: it leaves the output and the result alone, and does nothing while reset is asserted. -/
theorem State.Inv.memWrite {s : State} (h : s.Inv) (a : Nat) (v : Word) : (s.memWrite a v).Inv := by
  cases hr : s.inReset with
  | true => rwa [State.memWrite_of_inReset hr]
  | false =>
    refine ⟨by simpa using h.params, Memory.wf_memWrite a v h.memory, by simpa using h.result,
      by simpa using h.noPartialOutput, fun hm => ?_⟩
    simp [hr] at hm

/-- The reset values are legal at either level of the reset input. -/
theorem State.Inv.resetBlock {s : State} (h : s.Inv) (b : Bool) : (s.resetBlock b).Inv :=
  ⟨h.params, Memory.wf_resetBlock s b, .inl ⟨rfl, rfl⟩, fun _ => rfl, fun _ => s.resetBlock_atReset b⟩

theorem State.Inv.setReset {s : State} (h : s.Inv) (b : Bool) : (s.setReset b).Inv ∧ (s.setReset b).params = s.params := by
  obtain ⟨_, e⟩ | ⟨_, _, e⟩ := s.setReset_cases b <;> rw [e]
  · exact ⟨h.resetBlock b, rfl⟩
  · exact ⟨h, rfl⟩

section released

variable {s : State} (h : s.Inv) (hr : s.inReset = false)
include h hr

/-- An error outcome is legal: its pair is one of R171 and it shows no output (R172). -/
theorem State.Inv.raiseErr (c : Cause) : (s.raiseErr c).Inv :=
  ⟨h.params, Memory.wf_raiseErr c h.memory, c.resultLegal, fun _ => rfl, fun hm => by simp [hr] at hm⟩

/-- A completed command is legal, with its output stored or with CAPACITY (R173). -/
theorem State.Inv.complete (seq : List Pulse) : (s.complete seq).Inv := by
  have hw := Memory.wf_complete seq h.memory
  obtain ⟨_, e⟩ | ⟨_, e⟩ := s.complete_cases seq
  · rw [e]; exact h.raiseErr hr _
  · rw [e] at hw ⊢
    exact ⟨h.params, hw, .inl ⟨rfl, rfl⟩, fun he => absurd rfl he, fun hm => by simp [hr] at hm⟩

/-- Every command keeps legality. -/
theorem State.Inv.exec {i : Instr} {t : State} (he : exec i s = .next t) : t.Inv := by
  obtain ⟨_, e⟩ | ⟨_, e⟩ | ⟨c, e⟩ | ⟨seq, e⟩ := exec_cases i s <;> obtain rfl := Host.Outcome.next.inj (e.symm.trans he)
  · exact ⟨h.params, h.memory, .inl ⟨rfl, rfl⟩, fun he => absurd rfl he, fun hm => by simp [hr] at hm⟩
  · obtain ⟨hk, hpb, _⟩ := h.memory
    exact ⟨h.params, ⟨hk, hpb, Nat.zero_le _⟩, .inl ⟨rfl, rfl⟩, fun _ => rfl, fun hm => by simp [hr] at hm⟩
  · exact h.raiseErr hr c
  · exact h.complete hr seq

end released

/-- The engine's turn keeps legality: a latched command finds the reset input released. -/
theorem State.Inv.engineStep {s t : State} (h : s.Inv) (he : engineStep s = .next t) : t.Inv ∧ t.params = s.params := by
  refine ⟨?_, (engineStep_sameInputs he).1⟩
  obtain ⟨hb, i, u, _, hu, e⟩ | ⟨hb, r, _, e⟩ | ⟨_, e⟩ := engineStep_cases s <;>
    obtain rfl := Host.Outcome.next.inj (e.symm.trans he)
  · exact (h.exec (h.released_of_busy hb) hu).setBusy_false
  · exact (h.raiseErr (h.released_of_busy hb) _).setBusy_false
  · exact h

/-- Settles O51: each kind of input keeps legality and the parameters. -/
theorem stepKeepsLegality : Obligations.StepKeepsLegality := by
  intro s t h hs
  obtain (⟨_, he⟩ | ⟨rest, _, he⟩) | ⟨a, n, rest, _, _, he⟩ | ⟨a, v, rest, _, _, rfl⟩ | ⟨b, rest, _, rfl⟩ := step_cases hs
  · exact h.engineStep he
  · exact (h.setPort rest).engineStep he
  · exact (h.setPort rest).hostRead he
  · exact ⟨(h.setPort rest).memWrite a v, by simp⟩
  · exact (h.setPort rest).setReset b

/-- Settles O50: no command has run, and the reset input is released. -/
theorem resetIsLegal : Obligations.ResetIsLegal :=
  ⟨by decide, Memory.wf_reset, .inl ⟨rfl, rfl⟩, fun _ => rfl, fun _ => State.resetWith_atReset Params.spec 0⟩

end Sys2Proof.Machine

/-! ### Proofs: what a command does not read

A command ends in one of few ways, so two runs that raise the same error or store the same Pulses end in states that differ
only as their starting states did. -/

namespace Sys2Proof.Machine

open Sys2Proof

/-- From `s'` the commands end as they do from `s`, up to the alteration `alter` of the final state. -/
structure EndsAlike (alter : State → State) (s s' : State) : Prop where
  params : s'.params = s.params
  raiseErr : ∀ c, s'.raiseErr c = alter (s.raiseErr c)
  store : ∀ seq n, ((s'.storePulses seq).setCount n).setResult 0 0 = alter (((s.storePulses seq).setCount n).setResult 0 0)

namespace EndsAlike

variable {alter : State → State} {s s' : State} (h : EndsAlike alter s s')
include h

theorem complete (seq : List Pulse) : s'.complete seq = alter (s.complete seq) := by
  unfold State.complete
  rw [h.params, h.raiseErr, h.store]
  split <;> rfl

theorem finishSized (n : Nat) (f : Unit → Except Cause (List Pulse)) : s'.finishSized n f = alter (s.finishSized n f) := by
  unfold State.finishSized
  rw [h.params, h.raiseErr]
  split
  · rfl
  · cases f () with
    | error c => exact h.raiseErr c
    | ok seq => exact h.complete seq

theorem exec_frame {k : Nat} (hc : checkFrame k s' = checkFrame k s) (hs : symbols k s' = symbols k s) :
    ∃ t, exec (.frame k) s = .next t ∧ exec (.frame k) s' = .next (alter t) := by
  simp only [exec, execFrame, hc, hs]
  cases checkFrame k s with
  | some c => exact ⟨_, rfl, congrArg _ (h.raiseErr c)⟩
  | none => exact ⟨_, rfl, congrArg _ (h.complete _)⟩

theorem exec_gen {k : Nat} (hc : checkFrame k s' = checkFrame k s) (hs : symbols k s' = symbols k s)
    (he : s'.regs.present.startEn = s.regs.present.startEn) :
    ∃ t, exec (.gen k) s = .next t ∧ exec (.gen k) s' = .next (alter t) := by
  simp only [exec, execGen, hc, hs, he, h.params]
  cases checkFrame k s with
  | some c => exact ⟨_, rfl, congrArg _ (h.raiseErr c)⟩
  | none => exact ⟨_, rfl, congrArg _ (h.finishSized _ _)⟩

/-- SYNTH reads ARG_ON and the parameters only (R150). -/
theorem exec_synth (hon : s'.regs.argOn = s.regs.argOn) :
    ∃ t, exec .synth s = .next t ∧ exec .synth s' = .next (alter t) := by
  simp only [exec, execSynth, hon, h.params]
  exact ⟨_, rfl, congrArg _ (h.finishSized _ _)⟩

/-- EXPAND reads ARG_ON, ARG_OFF and the parameters only (R151). -/
theorem exec_expand (hon : s'.regs.argOn = s.regs.argOn) (hoff : s'.regs.argOff = s.regs.argOff) :
    ∃ t, exec .expand s = .next t ∧ exec .expand s' = .next (alter t) := by
  simp only [exec, execExpand, hon, hoff, h.params]
  exact ⟨_, rfl, congrArg _ (h.finishSized _ _)⟩

end EndsAlike

/-- Settles O22: no check and no symbol reads a flag, and every ending overwrites ERR and ERRINFO. -/
theorem outcomeIgnoresTheFlags : Obligations.OutcomeIgnoresTheFlags := by
  intro i s busy haz err info
  have reads : SameReads s { s with busy := busy, haz := haz, err := err, errInfo := info } := ⟨rfl, rfl, rfl, rfl, rfl, rfl⟩
  have ends : EndsAlike (fun t => (t.setBusy busy).setHaz haz) s { s with busy := busy, haz := haz, err := err, errInfo := info } :=
    ⟨rfl, fun _ => rfl, fun _ _ => rfl⟩
  cases i with
  | nop => exact ⟨_, rfl, rfl⟩
  | clear => exact ⟨_, rfl, rfl⟩
  | frame k => exact ends.exec_frame (reads.check k) (reads.symbols k)
  | gen k => exact ends.exec_gen (reads.check k) (reads.symbols k) rfl
  | synth => exact ends.exec_synth rfl
  | expand => exact ends.exec_expand rfl rfl

/-- Settles O32: with the operands as they were, the two runs end alike up to the replaced registers and keys. -/
theorem carrierCommandsReadOnlyTheirOperands : Obligations.CarrierCommandsReadOnlyTheirOperands := by
  intro s r ks hon
  have ends : EndsAlike (fun t => (t.setRegs r).setKeys ks) s { s with regs := r, keys := ks } :=
    ⟨rfl, fun _ => rfl, fun _ _ => rfl⟩
  exact ⟨ends.exec_synth hon, fun hoff => ends.exec_expand hon hoff⟩

end Sys2Proof.Machine

/-! ### Proofs: the flags -/

namespace Sys2Proof.Machine

open Sys2Proof

/-- All that a host write can do to BUSY and HAZ: nothing, clear HAZ, be a hazard, or latch a command (R23, R24, R202). -/
theorem State.memWrite_flags_cases (s : State) (a : Nat) (v : Word) :
    ((s.memWrite a v).busy = s.busy ∧ (s.memWrite a v).haz = s.haz) ∨
    (a = 0x004 ∧ v.getLsbD 1 = true ∧ (s.memWrite a v).busy = s.busy ∧ (s.memWrite a v).haz = false) ∨
    (a ≠ 0x004 ∧ s.busy = true ∧ (s.memWrite a v).busy = true ∧ (s.memWrite a v).haz = true) ∨
    (a = 0x000 ∧ (s.memWrite a v).latch = v ∧ (s.memWrite a v).busy = true ∧ s.busy = false ∧
      (s.memWrite a v).haz = s.haz) := by
  obtain ⟨_, e⟩ | ⟨_, ⟨h4, hv, e⟩ | ⟨_, _, e⟩ | ⟨h4, hb, e⟩ | ⟨h0, hb, e⟩ | ⟨_, _, _, e⟩⟩ := s.memWrite_cases a v <;> rw [e]
  · exact .inl ⟨rfl, rfl⟩
  · exact .inr (.inl ⟨h4, hv, rfl, rfl⟩)
  · exact .inl ⟨rfl, rfl⟩
  · exact .inr (.inr (.inl ⟨h4, hb, hb, rfl⟩))
  · exact .inr (.inr (.inr ⟨h0, rfl, rfl, hb, rfl⟩))
  · exact .inl (s.writeReg_flags v _)

/-- A read changes no piece of the block's own state (R64). -/
theorem State.hostRead_sameBlock {s t : State} {a n : Nat} (h : s.hostRead a n = .next t) : s.SameBlock t := by
  obtain ⟨_, e⟩ | ⟨_, _, _, e⟩ | ⟨_, e⟩ := s.hostRead_cases a n <;> rw [e] at h
  · cases h; simp [State.SameBlock]
  · cases h; simp [State.SameBlock]
  · cases h

/-- What the engine's turn does to the flags: BUSY is cleared, HAZ stays, and an idle turn leaves the result (R200, R185). -/
theorem engineStep_flags {s t : State} (h : engineStep s = .next t) :
    t.busy = false ∧ t.haz = s.haz ∧ (s.busy = false → t.err = s.err ∧ t.errInfo = s.errInfo) := by
  obtain ⟨_, _, hb, hh, _⟩ := engineStep_sameInputs h
  refine ⟨hb, hh, fun hi => ?_⟩
  obtain rfl := Host.Outcome.next.inj ((engineStep_of_idle hi).symm.trans h)
  exact ⟨rfl, rfl⟩

/-- The reset input sets neither BUSY nor HAZ (R190). -/
theorem State.setReset_flags (s : State) (b : Bool) :
    (s.busy = false → (s.setReset b).busy = false) ∧ (s.haz = false → (s.setReset b).haz = false) := by
  obtain ⟨_, e⟩ | ⟨_, _, e⟩ := s.setReset_cases b <;> rw [e]
  · exact ⟨fun _ => rfl, fun _ => rfl⟩
  · exact ⟨id, id⟩

/-- Settles O54: the cases of the input that the step takes. -/
theorem flagsChangeOnlyAsListed : Obligations.FlagsChangeOnlyAsListed := by
  intro s t hs
  obtain he | ⟨a, n, rest, hp, _, hr⟩ | ⟨a, v, rest, hp, _, rfl⟩ | ⟨b, rest, hp, rfl⟩ := step_cases hs
  · have turn : s.port = [] ∨ ∃ rest, s.port = .engine :: rest := he.imp And.left fun ⟨rest, hp, _⟩ => ⟨rest, hp⟩
    have flags : t.busy = false ∧ t.haz = s.haz ∧ (s.busy = false → t.err = s.err ∧ t.errInfo = s.errInfo) := by
      obtain ⟨_, he⟩ | ⟨rest, _, he⟩ := he
      · exact engineStep_flags he
      · simpa using engineStep_flags he
    obtain ⟨hb, hh, hi⟩ := flags
    refine ⟨by simp [hb], fun _ _ => .inl turn, fun _ _ => hb, by simp_all, by simp_all, fun hc => .inl ⟨?_, turn⟩⟩
    by_contra hidle
    obtain ⟨he, hf⟩ := hi (by simpa using hidle)
    exact hc.elim (absurd he) (absurd hf)
  · obtain ⟨_, _, hb, hh, he, hf, _⟩ := State.hostRead_sameBlock hr
    simp_all
  · obtain ⟨hb, hh⟩ | ⟨h4, hv, hb, hh⟩ | ⟨h4, hbusy, hb, hh⟩ | ⟨h0, hl, hb, hbusy, hh⟩ :=
      (s.setPort rest).memWrite_flags_cases a v
    -- no flag changed; HAZ cleared through STATUS; a hazard; a command latched
    · simp_all
    · simp_all
    · simp_all
    · simp_all
  · have turn : ∃ b rest, s.port = .reset b :: rest := ⟨b, rest, hp⟩
    obtain ⟨hb, hh⟩ := (s.setPort rest).setReset_flags b
    exact ⟨fun h h' => absurd h' (by simp [hb h]), fun _ _ => .inr turn, by simp [hp],
      fun h h' => absurd h' (by simp [hh h]), fun _ _ => .inr turn, fun _ => .inr turn⟩

end Sys2Proof.Machine

/-! ### Proofs: host accesses as steps, the key table, and the reset values -/

namespace Sys2Proof.Machine

open Sys2Proof

/-- An admitted host write at the head of the port is the next step (R67). -/
theorem step_write {s : State} {a : Nat} {v : Word} {rest : List PortEvent} (hp : s.port = .write a 4 v :: rest)
    (ha : admitted a 4 = true) : step s = .next ((s.setPort rest).memWrite a v) := by
  simp [step, hp, handle, State.hostWrite, ha]

/-- An admitted host read at the head of the port is the next step (R66). -/
theorem step_read {s : State} {a : Nat} {rest : List PortEvent} (hp : s.port = .read a 4 :: rest)
    (ha : admitted a 4 = true) :
    step s = .next (((s.setPort rest).memRead a).2.reply ((s.setPort rest).memRead a).1) := by
  simp [step, hp, handle, State.hostRead, ha]

/-- A register that is not hidden reads as it stands, whether BUSY is 0 or 1 (R66). -/
theorem State.memRead_visible {s : State} {a : Nat} (h : (regAt s.params a).hiddenWhileBusy = false) :
    s.memRead a = (s.readReg (regAt s.params a), s) := by
  simp [State.memRead, h]

/-- A write to STATUS, with the reset input released (R24). -/
theorem State.memWrite_status {s : State} (hr : s.inReset = false) (v : Word) :
    s.memWrite 0x004 v = s.setHaz (s.haz && !v.getLsbD 1) := by
  simp only [State.memWrite, hr]
  cases v.getLsbD 1 <;> simp [State.setHaz]

/-- While BUSY = 1 a write to another offset than STATUS only sets HAZ (R202). -/
theorem State.memWrite_hazard {s : State} (hr : s.inReset = false) (hb : s.busy = true) {a : Nat} (ha : a ≠ 0x004) (v : Word) :
    s.memWrite a v = s.setHaz true := by
  simp [State.memWrite, hr, hb, ha]

/-- With BUSY = 0 a write to CMD latches the word (R23). -/
theorem State.memWrite_cmd {s : State} (hr : s.inReset = false) (hb : s.busy = false) (v : Word) :
    s.memWrite 0x000 v = (s.setLatch v).setBusy true := by
  simp [State.memWrite, hr, hb]

/-- With BUSY = 0 a write to any other offset goes to the register there (R67). -/
theorem State.memWrite_register {s : State} (hr : s.inReset = false) (hb : s.busy = false) {a : Nat} (h0 : a ≠ 0x000)
    (h4 : a ≠ 0x004) (v : Word) : s.memWrite a v = s.writeReg v (regAt s.params a) := by
  simp [State.memWrite, hr, hb, h0, h4]

/-- Settles O39: the write as one step, and the read of a register that holds 0. -/
theorem cmdWriteLatchesTheCommand : Obligations.CmdWriteLatchesTheCommand := by
  intro s rest
  refine ⟨fun hr w hp => ⟨fun hb => ?_, fun hb => ?_⟩, fun hp => ?_⟩
  · rw [step_write hp rfl, State.memWrite_cmd (s := s.setPort rest) hr hb]; rfl
  · rw [step_write hp rfl, State.memWrite_hazard (s := s.setPort rest) hr hb (by decide)]; rfl
  · rw [step_read hp rfl, State.memRead_visible rfl]; rfl

/-- Settles O40: the write of STATUS as one step. -/
theorem statusWriteClearsHazOnly : Obligations.StatusWriteClearsHazOnly := by
  intro s v rest hr hp
  rw [step_write hp rfl, State.memWrite_status (s := s.setPort rest) hr]
  rfl

/-! ### The constants -/

theorem regAt_pulseCap (p : Params) : regAt p 0x05C = .pulseCap := rfl
theorem regAt_keyCount (p : Params) : regAt p 0x060 = .keyCount := rfl
theorem regAt_carrier (p : Params) : regAt p 0x064 = .carrier := rfl

/-- With BUSY = 0 a write to an offset whose register stores nothing does nothing, at either level of the reset input. -/
theorem State.memWrite_readOnly {s : State} (hb : s.busy = false) {a : Nat} (h0 : a ≠ 0x000) (h4 : a ≠ 0x004) {v : Word}
    (hw : s.writeReg v (regAt s.params a) = s) : s.memWrite a v = s := by
  cases hr : s.inReset with
  | true => exact State.memWrite_of_inReset hr a v
  | false => rw [State.memWrite_register hr hb h0 h4, hw]

/-- Settles O43: the three offsets name read-only registers, and CARRIER is evaluated for each tie rule and start rule. -/
theorem constantRegistersRead : Obligations.ConstantRegistersRead := by
  refine ⟨fun s => ⟨rfl, rfl⟩, fun s v rest hb a ha hp => ?_, fun s hs => ?_, fun s => ?_⟩
  · obtain ⟨hadm, h0, h4, hro⟩ :
        admitted a 4 = true ∧ a ≠ 0x000 ∧ a ≠ 0x004 ∧ ∀ u : State, u.writeReg v (regAt u.params a) = u := by
      simp only [List.mem_cons, List.not_mem_nil, or_false] at ha
      obtain rfl | rfl | rfl := ha <;> exact ⟨rfl, by decide, by decide, fun _ => rfl⟩
    rw [step_write hp hadm, State.memWrite_readOnly (s := s.setPort rest) hb h0 h4 (hro _)]
    rfl
  · rw [regAt_pulseCap, regAt_keyCount, regAt_carrier]
    simp only [State.readReg, hs]
    decide
  · rw [regAt_carrier]
    simp only [State.readReg, carrierWord]
    cases s.params.roundTie <;> cases s.params.startModulated <;> rfl

/-! ### The key table -/

/-- The HI and LO words of a 64-bit value make it again (R35). -/
theorem joinHalves_extract (v : DWord) : joinHalves (v.extractLsb' 32 32) (v.extractLsb' 0 32) = v := by
  have h := v.isLt
  apply BitVec.eq_of_toNat_eq
  rw [joinHalves, append_toNat]
  simp only [BitVec.extractLsb'_toNat, Nat.shiftRight_eq_div_pow]
  omega

/-- The overwritten entry, whatever inputs are pending. -/
theorem State.keyAt_setKey_same {s : State} {k : Nat} (h : k < s.keys.length) (p : List PortEvent) (e : KeyEntry) :
    ((s.setPort p).setKey k e).keyAt k = e := by
  rw [State.keyAt_setKey (s := s.setPort p) h, if_pos rfl]

/-- Every other entry stays. -/
theorem State.keyAt_setKey_other {s : State} {k j : Nat} (h : k < s.keys.length) (p : List PortEvent) (e : KeyEntry)
    (hj : j ≠ k) : ((s.setPort p).setKey k e).keyAt j = s.keyAt j := by
  rw [State.keyAt_setKey (s := s.setPort p) h, if_neg hj]; rfl

/-- The later of two overwrites of one entry stands. -/
theorem State.setKey_setPort_setKey (s : State) (p q : List PortEvent) (k : Nat) (e e' : KeyEntry) :
    (((s.setPort p).setKey k e).setPort q).setKey k e' = (s.setPort q).setKey k e' := by
  simp [State.setKey, State.setKeys, State.setPort]

section keyWrites

variable {s : State} {k : Nat} {v : Word} {rest : List PortEvent}
  (hp : s.params.wf) (hr : s.inReset = false) (hb : s.busy = false) (hk : k < s.params.nKeys)
include hp hr hb hk

/-- From an idle block, a write to the word at byte m of key-table entry k is one step. -/
theorem step_write_key {a m : Nat} (ha : a = 0x1000 + 16 * k + m) (hm : m < 16) (hm4 : m % 4 = 0)
    (hport : s.port = HostProgram.wr a v :: rest) : step s = .next ((s.setPort rest).writeReg v (keyReg k m)) := by
  obtain ⟨_, hn, _, _⟩ := hp
  have hlt : a < Config.windowSize := by show a < 0x20000; omega
  have hadm : admitted a 4 = true := by simp [admitted, hlt]; omega
  rw [step_write hport hadm, State.memWrite_register (s := s.setPort rest) hr hb (by omega) (by omega), ha,
    State.setPort_params, regAt_key hk hm]

theorem step_write_kflags (hport : s.port = HostProgram.wr (0x1000 + 16 * k) v :: rest) :
    step s = .next ((s.setPort rest).setKey k { s.keyAt k with valid := v.getLsbD 0 }) :=
  step_write_key (m := 0x0) hp hr hb hk rfl (by decide) rfl hport

theorem step_write_kvalLo (hport : s.port = HostProgram.wr (0x1004 + 16 * k) v :: rest) :
    step s = .next ((s.setPort rest).setKey k { s.keyAt k with lo := v }) :=
  step_write_key (m := 0x4) hp hr hb hk (by omega) (by decide) rfl hport

theorem step_write_kvalHi (hport : s.port = HostProgram.wr (0x1008 + 16 * k) v :: rest) :
    step s = .next ((s.setPort rest).setKey k { s.keyAt k with hi := v }) :=
  step_write_key (m := 0x8) hp hr hb hk (by omega) (by decide) rfl hport

/-- SETKEY runs in three steps, one write after the other (R89). -/
theorem run_setKey (hlen : k < s.keys.length) (code : DWord) (hport : s.port = HostProgram.setKey k code ++ rest) :
    core.run 3 s =
      .next ((s.setPort rest).setKey k { valid := true, lo := code.extractLsb' 0 32, hi := code.extractLsb' 32 32 }) := by
  have lo := step_write_kvalLo hp hr hb hk hport
  have hi (e : KeyEntry) (w : Word) (q : List PortEvent) :
      step ((s.setPort (HostProgram.wr (0x1008 + 16 * k) w :: q)).setKey k e) = .next ((s.setPort q).setKey k { e with hi := w }) := by
    rw [step_write_kvalHi (s := (s.setPort (HostProgram.wr (0x1008 + 16 * k) w :: q)).setKey k e) hp hr hb hk rfl,
      State.setKey_setPort_setKey, State.keyAt_setKey_same hlen]
  have flags (e : KeyEntry) (w : Word) (q : List PortEvent) :
      step ((s.setPort (HostProgram.wr (0x1000 + 16 * k) w :: q)).setKey k e) =
        .next ((s.setPort q).setKey k { e with valid := w.getLsbD 0 }) := by
    rw [step_write_kflags (s := (s.setPort (HostProgram.wr (0x1000 + 16 * k) w :: q)).setKey k e) hp hr hb hk rfl,
      State.setKey_setPort_setKey, State.keyAt_setKey_same hlen]
  exact (run_succ lo 2).trans ((run_succ (hi _ _ _) 1).trans (run_succ (flags _ _ _) 0))

/-- DELKEY is one write (R89). -/
theorem run_delKey (hport : s.port = HostProgram.delKey k ++ rest) :
    core.run 1 s = .next ((s.setPort rest).setKey k { s.keyAt k with valid := false }) :=
  run_succ (step_write_kflags hp hr hb hk hport) 0

end keyWrites

/-- Settles O45: each program overwrites entry k, and that entry alone. -/
theorem keysAreDefinedAndUndefined : Obligations.KeysAreDefinedAndUndefined := by
  intro s k v rest h hr hb hk
  have hlen : k < s.keys.length := by rw [h.memory.1]; exact hk
  refine ⟨fun hport => ⟨_, run_setKey h.params hr hb hk hlen v hport, ?_⟩,
    fun hport => ⟨_, run_delKey h.params hr hb hk hport, ?_⟩⟩
  · rw [State.keyAt_setKey_same hlen]
    exact ⟨rfl, joinHalves_extract v, fun j hj => State.keyAt_setKey_other hlen _ _ hj, rfl, rfl⟩
  · rw [State.keyAt_setKey_same hlen]
    exact ⟨rfl, rfl, fun j hj => State.keyAt_setKey_other hlen _ _ hj, rfl, rfl⟩

/-! ### Reset -/

/-- After reset every offset from STATUS to PULSE_COUNT reads 0, row by row of the map (R41). -/
theorem State.reset_readReg_control {a : Nat} (h : a ≤ 0x058) : State.reset.readReg (regAt State.reset.params a) = 0 := by
  refine regAt_control_induction (by omega) (fun a r => a ≤ 0x058 → State.reset.readReg r = 0) (by decide) (fun _ => rfl) h

/-- No entry of the pulse window is visible after reset. -/
theorem State.visiblePulse_of_empty {s : State} (h : s.pulseCount = 0) (i : Nat) : s.visiblePulse i = { on := 0, off := 0 } := by
  simp [State.visiblePulse, h]

/-- Settles O47: the fields by definition, and what the registers read. -/
theorem resetValues : Obligations.ResetValues := by
  obtain ⟨hb, hh, he, hi, hl, hr, hc, hk⟩ := State.resetWith_atReset Params.spec 0
  exact ⟨hb, hh, he, hi, hl, hr, hc, rfl, rfl, hk, State.visiblePulse_of_empty hc,
    fun _ _ ha _ => State.reset_readReg_control ha⟩

end Sys2Proof.Machine

/-! ### Proofs: what each register reads and stores, offset by offset (20_memory.md R60 to R67) -/

namespace Sys2Proof.Machine

open Sys2Proof

/-! ### Admitted accesses and the window -/

/-- An aligned 32-bit access inside the window is admitted (R62). -/
theorem admitted_of_aligned {a : Nat} (h4 : a % 4 = 0) (ha : a < 0x20000) : admitted a 4 = true := by
  simp [admitted, h4, show a < Config.windowSize from ha]

/-- Every other access is not (R62). -/
theorem not_admitted {a n : Nat} (h : n ≠ 4 ∨ a % 4 ≠ 0 ∨ 0x20000 ≤ a) : admitted a n = false := by
  have window : Config.windowSize = 0x20000 := rfl
  cases hadm : admitted a n with
  | false => rfl
  | true => simp [admitted] at hadm; omega

/-- A step with an input pending takes the first one. -/
theorem step_cons {s : State} {e : PortEvent} {rest : List PortEvent} (hp : s.port = e :: rest) :
    step s = handle e (s.setPort rest) := by
  simp [step, hp]

/-- Settles O42: the step takes the access, which is not admitted. -/
theorem otherAccessesAreRefused : Obligations.OtherAccessesAreRefused := by
  intro s a n v rest h
  have hadm := not_admitted h
  refine ⟨fun hp => ?_, fun hp => ?_⟩
  · simp [step_cons hp, handle, State.hostRead, hadm]
  · simp [step_cons hp, handle, State.hostWrite, hadm]

/-- A 64-bit value as a number: the HI word above the LO word (R63). -/
theorem joinHalves_toNat (hi lo : Word) : (joinHalves hi lo).toNat = hi.toNat * 2 ^ 32 + lo.toNat :=
  append_toNat hi lo

/-- The four lanes of a word made of four bytes are those bytes (R63). -/
theorem lanesOfWord_wordOfLanes (b0 b1 b2 b3 : Byte) : lanesOfWord (wordOfLanes b0 b1 b2 b3) = [b0, b1, b2, b3] := by
  have lane (b : Byte) (j : Nat) (h : (wordOfLanes b0 b1 b2 b3).toNat / 2 ^ j % 2 ^ 8 = b.toNat) :
      (wordOfLanes b0 b1 b2 b3).extractLsb' j 8 = b :=
    BitVec.eq_of_toNat_eq (by rw [BitVec.extractLsb'_toNat, Nat.shiftRight_eq_div_pow, h])
  have := b0.isLt; have := b1.isLt; have := b2.isLt; have := b3.isLt
  simp only [wordOfLanes_toNat] at lane
  simp only [lanesOfWord]
  rw [lane b0 0 (by omega), lane b1 8 (by omega), lane b2 16 (by omega), lane b3 24 (by omega)]

/-- Settles O44: concatenations as numbers. -/
theorem halvesAndLanesAreLittleEndian : Obligations.HalvesAndLanesAreLittleEndian :=
  ⟨fun r => ⟨joinHalves_toNat r.hdrHi r.hdrLo, joinHalves_toNat r.ftrHi r.ftrLo⟩,
    fun e => joinHalves_toNat e.hi e.lo,
    fun b0 b1 b2 b3 => ⟨wordOfLanes_toNat b0 b1 b2 b3, lanesOfWord_wordOfLanes b0 b1 b2 b3⟩⟩

/-- The addresses of the window are the 0x20000 from its base, aligned or not. -/
theorem windowOffset_eq_some {base addr off : Nat} :
    windowOffset base addr = some off ↔ addr = base + off ∧ off < 0x20000 := by
  have window : Config.windowSize = 0x20000 := rfl
  unfold windowOffset
  split
  · rw [Option.some.injEq]; omega
  · simp only [reduceCtorEq, false_iff]; omega

/-- Settles O46: an aligned base has its low 17 bits 0, so they are the offset's. -/
theorem windowIsAlignedAtTheBase : Obligations.WindowIsAlignedAtTheBase := by
  intro base addr off hbase
  refine ⟨windowOffset_eq_some, fun h => ?_⟩
  obtain ⟨rfl, hoff⟩ := windowOffset_eq_some.mp h
  omega

/-! ### The register map by regions -/

/-- Offsets from 0x068 to the key table are reserved. -/
theorem regAt_above_control {p : Params} {a : Nat} (h : 0x068 ≤ a) (h' : a < 0x1000) : regAt p a = .reserved := by
  rw [regAt_control h', controlMap_lookup]
  repeat rw [if_neg (by omega)]

/-- The registers that show a command's result and output: all that a command's ending can change (R172, R173). -/
def Reg.showsOutcome : Reg → Bool
  | .status | .errInfo | .pulseCount | .pon _ | .poff _ => true
  | _ => false

theorem keyReg_not_showsOutcome (k m : Nat) : (keyReg k m).showsOutcome = false := by
  unfold keyReg
  split_ifs <;> rfl

/-- Below the pulse window and above its entries, only STATUS, ERRINFO and PULSE_COUNT show a command's outcome. -/
theorem regAt_not_showsOutcome {p : Params} {a : Nat} (ha : a < 0x10000 ∨ 0x10000 + 8 * p.pulseCap ≤ a)
    (hs : a ≠ 0x004) (he : a ≠ 0x008) (hc : a ≠ 0x058) : (regAt p a).showsOutcome = false := by
  by_cases h : a < 0x1000
  · exact regAt_control_induction h
      (fun a r => a ≠ 0x004 → a ≠ 0x008 → a ≠ 0x058 → r.showsOutcome = false) (by decide) (fun _ _ _ => rfl) hs he hc
  · rw [regAt, if_neg h]
    -- the key table, the reserved offsets after it, the pulse entries at either half, the offsets above them
    split_ifs
    · exact keyReg_not_showsOutcome _ _
    · rfl
    · omega
    · omega
    · rfl

/-- A register that belongs to a key stands in the key table, so the key is one of the block's. -/
theorem regAt_keyIndex_lt {p : Params} {a k : Nat} (h : (regAt p a).keyIndex = some k) : k < p.nKeys := by
  by_cases hc : a < 0x1000
  · have noKey : (regAt p a).keyIndex = none :=
      regAt_control_induction hc (fun _ r => r.keyIndex = none) (by decide) rfl
    rw [noKey] at h; cases h
  · rw [regAt, if_neg hc] at h
    split_ifs at h with hk
    · unfold keyReg at h
      split_ifs at h <;> cases h <;> omega
    all_goals cases h

/-- The writable words of a key-table entry are the first three of its four (R35). -/
theorem keyReg_writable {k m : Nat} (h4 : m % 4 = 0) (hm : m < 16) : (keyReg k m).writable = true ↔ m ≠ 12 := by
  obtain rfl | rfl | rfl | rfl : m = 0 ∨ m = 4 ∨ m = 8 ∨ m = 12 := by omega
  all_goals simp [keyReg, Reg.writable]

/-- The writable registers stand from PRESENT to ARG_OFF, where 0x01C is reserved, and in the first three words of each
key-table entry (R22). -/
theorem regAt_writable {p : Params} {a : Nat} (h4 : a % 4 = 0) (ha : a < 0x20000) (hp : p.wf) :
    (regAt p a).writable = true ↔
      0x010 ≤ a ∧ a ≤ 0x054 ∧ a ≠ 0x01C ∨ 0x1000 ≤ a ∧ a < 0x1000 + 16 * p.nKeys ∧ a % 16 ≠ 12 := by
  by_cases hc : a < 0x1000
  · by_cases hrow : a < 0x068
    · have rows : ∀ i < 26, ((controlMap.lookup (4 * i)).getD .reserved).writable = decide (4 ≤ i ∧ i ≤ 21 ∧ i ≠ 7) := by
        decide
      obtain ⟨i, rfl⟩ : ∃ i, a = 4 * i := ⟨a / 4, by omega⟩
      rw [regAt_control hc, rows i (by omega), decide_eq_true_eq]
      omega
    · rw [regAt_above_control (by omega) hc]
      simp only [Reg.writable, Bool.false_eq_true, false_iff]
      omega
  · by_cases hk : a < 0x1000 + 16 * p.nKeys
    · rw [regAt, if_neg hc, if_pos hk, keyReg_writable (by omega) (by omega)]
      omega
    · rw [regAt, if_neg hc, if_neg hk]
      split_ifs <;> simp only [Reg.writable, Bool.false_eq_true, false_iff] <;> omega

/-- The bits a writable register stores, by its offset (R26, R27, R35). -/
theorem Reg.definedBits_of_writable {r : Reg} {a : Nat} (ha : r.offset = a) (hw : r.writable = true) :
    r.definedBits = if a = 0x010 then 0x3F else if a = 0x014 then 0xFFFFFF01
      else if 0x1000 ≤ a ∧ a % 16 = 0 then 1 else 0xFFFFFFFF := by
  cases r with
  | kflags k =>
    have hk : 0x1000 + 16 * k = a := ha
    rw [if_neg (by omega), if_neg (by omega), if_pos (by omega)]; rfl
  | kvalLo k =>
    have hk : 0x1004 + 16 * k = a := ha
    rw [if_neg (by omega), if_neg (by omega), if_neg (by omega)]; rfl
  | kvalHi k =>
    have hk : 0x1008 + 16 * k = a := ha
    rw [if_neg (by omega), if_neg (by omega), if_neg (by omega)]; rfl
  | pon i => cases hw
  | poff i => cases hw
  | _ => subst ha; revert hw; decide

/-! ### What a command leaves readable -/

/-- Every register but those that show the outcome is made of what no command writes. -/
theorem State.SameInputs.readReg {s t : State} (h : s.SameInputs t) {r : Reg} (hr : r.showsOutcome = false) :
    t.readReg r = s.readReg r := by
  obtain ⟨hp, _, _, _, _, hg, hk, _, _⟩ := h
  have hkey (k : Nat) : t.keyAt k = s.keyAt k := by rw [State.keyAt, hk]; rfl
  cases r with
  | status => cases hr
  | errInfo => cases hr
  | pulseCount => cases hr
  | pon i => cases hr
  | poff i => cases hr
  | _ => simp only [State.readReg, hkey, hp, hg]

/-- Settles O33: a command writes none of its inputs, and the offsets named show nothing else. -/
theorem commandsLeaveTheHostsStateAlone : Obligations.CommandsLeaveTheHostsStateAlone := by
  intro i s t hexec
  have same := exec_sameInputs hexec
  have ⟨hp, _⟩ := same
  refine ⟨same, fun a ha hs he hc => ?_⟩
  rw [hp]
  exact same.readReg (regAt_not_showsOutcome ha hs he hc)

/-! ### The words made of fields -/

/-- STATUS as a number (R24). -/
theorem statusWord_eq (s : State) :
    statusWord s = BitVec.ofNat 32 (s.busy.toNat + 2 * s.haz.toNat + 2 ^ 8 * s.err.toNat) := by
  have h : (statusWord s).toNat =
      ((((0#20 ++ s.err) ++ 0#6) ++ BitVec.ofBool s.haz) ++ BitVec.ofBool s.busy).toNat := rfl
  apply BitVec.eq_of_toNat_eq
  have := s.err.isLt; have := s.busy.toNat_le; have := s.haz.toNat_le
  rw [h]
  simp only [append_toNat, BitVec.toNat_ofBool, BitVec.toNat_ofNat]
  omega

/-- ERRINFO as a number (R25). -/
theorem errInfoWord_eq (s : State) : errInfoWord s = BitVec.ofNat 32 s.errInfo.toNat := by
  have h : (errInfoWord s).toNat = (0#24 ++ s.errInfo).toNat := rfl
  apply BitVec.eq_of_toNat_eq
  have := s.errInfo.isLt
  rw [h]
  simp only [append_toNat, BitVec.toNat_ofNat]
  omega

/-- PRESENT as a number (R26). -/
theorem Present.toWord_eq (p : Present) :
    p.toWord = BitVec.ofNat 32 (p.startEn.toNat + 2 * p.stopEn.toNat + 4 * p.zeroValid.toNat + 8 * p.oneValid.toNat +
      16 * p.hdrEn.toNat + 32 * p.ftrEn.toNat) := by
  obtain ⟨a, b, c, d, e, f⟩ := p
  revert a b c d e f
  decide

/-- PCFG as a number (R27). -/
theorem Pcfg.toWord_eq (c : Pcfg) :
    c.toWord = BitVec.ofNat 32 (c.firstBit.toNat + 2 ^ 8 * c.hdrSize.toNat + 2 ^ 16 * c.dataSize.toNat +
      2 ^ 24 * c.ftrSize.toNat) := by
  have h : c.toWord.toNat = ((((c.ftrSize ++ c.dataSize) ++ c.hdrSize) ++ 0#7) ++ BitVec.ofBool c.firstBit).toNat := rfl
  apply BitVec.eq_of_toNat_eq
  have := c.ftrSize.isLt; have := c.dataSize.isLt; have := c.hdrSize.isLt; have := c.firstBit.toNat_le
  rw [h]
  simp only [append_toNat, BitVec.toNat_ofBool, BitVec.toNat_ofNat]
  omega

/-- CARRIER as a number (R33). -/
theorem carrierWord_eq (p : Params) :
    carrierWord p = BitVec.ofNat 32 (38 + 2 ^ 8 * 9 + 2 ^ 16 * (decide (p.roundTie = .halfEven)).toNat +
      2 ^ 17 * p.startModulated.toNat) := by
  simp only [carrierWord, carrierOn_eq]
  cases p.roundTie <;> cases p.startModulated <;> rfl

/-! ### Host reads -/

/-- A read leaves the state as it was but for the number of draws (R64). -/
theorem State.memRead_state (s : State) (a : Nat) : (s.memRead a).2 = s ∨ (s.memRead a).2 = s.drawn := by
  unfold State.memRead
  dsimp only
  split
  · exact .inr rfl
  · exact .inl rfl

section memRead

variable {s : State} {a : Nat}

/-- A read of the register at `a`, unless BUSY = 1 hides it, returns what the register holds (R66). -/
theorem State.memRead_register {r : Reg} (hr : regAt s.params a = r) (h : s.busy = false ∨ r.hiddenWhileBusy = false) :
    (s.memRead a).1 = s.readReg r := by
  subst hr
  have hb : (s.busy && (regAt s.params a).hiddenWhileBusy) = false := by
    obtain h | h := h <;> simp [h]
  simp [State.memRead, hb]

/-- A table of offsets, none hidden, with the values the registers there hold gives what reads return. -/
theorem State.memRead_rows {rows : List (Nat × Word)}
    (h : rows.map (fun row => ((regAt s.params row.1).hiddenWhileBusy, s.readReg (regAt s.params row.1))) =
      rows.map (fun row => (false, row.2))) :
    ∀ row ∈ rows, a = row.1 → (s.memRead a).1 = row.2 := by
  rintro row hrow rfl
  obtain ⟨hvisible, hvalue⟩ := Prod.mk.inj (List.map_inj_left.mp h row hrow)
  rw [State.memRead_register rfl (.inr hvisible), hvalue]

/-- Reserved offsets read 0, whether BUSY is 0 or 1 (R34). -/
theorem State.memRead_reserved (hr : regAt s.params a = .reserved) : (s.memRead a).1 = 0 :=
  State.memRead_register hr (.inr rfl)

/-- The four words of key-table entry k (R35). -/
theorem State.memRead_key {k : Nat} (hk : k < s.params.nKeys) :
    (a = 0x1000 + 16 * k → (s.memRead a).1 = BitVec.ofNat 32 (s.keyAt k).valid.toNat) ∧
      (a = 0x1004 + 16 * k → (s.memRead a).1 = (s.keyAt k).lo) ∧
      (a = 0x1008 + 16 * k → (s.memRead a).1 = (s.keyAt k).hi) ∧ (a = 0x100C + 16 * k → (s.memRead a).1 = 0) := by
  have word {m : Nat} (hm : m < 16) (ha : a = 0x1000 + 16 * k + m) : regAt s.params a = keyReg k m := by
    rw [ha, regAt_key hk hm]
  refine ⟨fun ha => ?_, fun ha => ?_, fun ha => ?_, fun ha => ?_⟩
  · rw [State.memRead_register (r := .kflags k) (word (m := 0) (by decide) ha) (.inr rfl), State.readReg]
    cases (s.keyAt k).valid <;> rfl
  · exact State.memRead_register (r := .kvalLo k) (word (m := 4) (by decide) (by omega)) (.inr rfl)
  · exact State.memRead_register (r := .kvalHi k) (word (m := 8) (by decide) (by omega)) (.inr rfl)
  · exact State.memRead_reserved (word (m := 12) (by decide) (by omega))

/-- Entry i of the pulse window, with BUSY = 0 (R36). -/
theorem State.memRead_pulse (hp : s.params.wf) (hb : s.busy = false) {i : Nat} (hi : i < s.params.pulseCap) :
    (a = 0x10000 + 8 * i → (s.memRead a).1 = if i < s.pulseCount.toNat then (s.pbAt i).on else 0) ∧
      (a = 0x10004 + 8 * i → (s.memRead a).1 = if i < s.pulseCount.toNat then (s.pbAt i).off else 0) := by
  obtain ⟨hon, hoff⟩ := regAt_pulse hp hi
  constructor
  · rintro rfl
    rw [State.memRead_register hon (.inl hb), State.readReg, State.visiblePulse]
    split <;> rfl
  · rintro rfl
    rw [State.memRead_register hoff (.inl hb), State.readReg, State.visiblePulse]
    split <;> rfl

end memRead

/-- Settles O36: the read as one step; then its value region by region. -/
theorem hostReadReturnsTheRegister : Obligations.HostReadReturnsTheRegister := by
  intro s a rest hp h4 ha hport
  have hs := step_read hport (admitted_of_aligned h4 ha)
  have hframe := (s.setPort rest).memRead_state a
  refine ⟨_, ((s.setPort rest).memRead a).1, hs, ?block, ?port, ?replies, ?rows, ?control, ?keys, ?aboveKeys,
    fun hb => ⟨?count, ?above, ?pulses⟩⟩
  case block => obtain e | e := hframe <;> rw [e] <;> simp [State.SameBlock]
  case port => obtain e | e := hframe <;> rw [e] <;> rfl
  case replies => obtain e | e := hframe <;> rw [e] <;> rfl
  case rows =>
    rw [← statusWord_eq, ← errInfoWord_eq, ← Present.toWord_eq, ← Pcfg.toWord_eq, ← carrierWord_eq]
    exact State.memRead_rows rfl
  case control => exact fun h h' => State.memRead_reserved (regAt_above_control h h')
  case keys => exact fun k hk => State.memRead_key (s := s.setPort rest) hk
  case aboveKeys => exact fun h h' => State.memRead_reserved (regAt_above_keys h h')
  case count =>
    rintro rfl
    exact State.memRead_register (s := s.setPort rest) (r := .pulseCount) rfl (.inl hb)
  case above => exact fun h => State.memRead_reserved (regAt_above_pulses hp h)
  case pulses => exact fun i hi => State.memRead_pulse (s := s.setPort rest) hp hb hi

/-! ### Host writes -/

/-- A register no write stores into keeps the whole state (R67). -/
theorem State.writeReg_of_not_writable (s : State) (v : Word) {r : Reg} (h : r.writable = false) : s.writeReg v r = s := by
  cases r with
  | cmd | status | errInfo | pulseCount | pulseCap | keyCount | carrier | pon _ | poff _ | reserved => rfl
  | _ => cases h

theorem Reg.ne_reserved_of_writable {r : Reg} (h : r.writable = true) : r ≠ .reserved := by
  rintro rfl
  cases h

section writeReg

variable (s : State) (v : Word) (r : Reg)

@[simp] theorem State.writeReg_params : (s.writeReg v r).params = s.params := by rw [State.writeReg_eq]; rfl
@[simp] theorem State.writeReg_inReset : (s.writeReg v r).inReset = s.inReset := by rw [State.writeReg_eq]; rfl
@[simp] theorem State.writeReg_latch : (s.writeReg v r).latch = s.latch := by rw [State.writeReg_eq]; rfl
@[simp] theorem State.writeReg_port : (s.writeReg v r).port = s.port := by rw [State.writeReg_eq]; rfl

end writeReg

/-- Reading at `b` after a write of the register at `a`: the stored bits at `a`, and elsewhere what was there (R67). -/
theorem State.readReg_writeReg_at {s : State} (hi : s.Inv) (v : Word) {a b : Nat} (ha : a % 4 = 0) (hb : b % 4 = 0)
    (hw : (regAt s.params a).writable = true) :
    (s.writeReg v (regAt s.params a)).readReg (regAt s.params b) =
      if b = a then v &&& (regAt s.params a).definedBits else s.readReg (regAt s.params b) := by
  have hkey (k : Nat) (hk : (regAt s.params a).keyIndex = some k) : k < s.keys.length := by
    rw [hi.memory.1]; exact regAt_keyIndex_lt hk
  have hne := Reg.ne_reserved_of_writable hw
  have same : regAt s.params b = regAt s.params a ↔ b = a :=
    ⟨fun e => (regAt_injective hi.params ha hb hne e.symm).symm, fun e => by rw [e]⟩
  rw [State.readReg_writeReg s v _ _ hw hkey]
  simp only [same]

/-- Settles O38: one case per kind of offset, by the rule of the write there. -/
theorem hostWriteStoresTheDefinedBits : Obligations.HostWriteStoresTheDefinedBits := by
  intro s a v rest hi hr h4 ha hport writable mask
  have hs := step_write hport (admitted_of_aligned h4 ha)
  have hwritable : (regAt s.params a).writable = true ↔ writable := regAt_writable h4 ha hi.params
  refine ⟨?status, ?hazard, ?cmd, ?stored, ?ignored⟩
  case status =>
    rintro rfl
    rw [hs, State.memWrite_status (s := s.setPort rest) hr]
    cases v.getLsbD 1 <;> simp [State.setPort, State.setHaz]
  case hazard =>
    intro hstatus hb
    rw [hs, State.memWrite_hazard (s := s.setPort rest) hr hb hstatus]; rfl
  case cmd =>
    rintro rfl hb
    rw [hs, State.memWrite_cmd (s := s.setPort rest) hr hb]; rfl
  case stored =>
    intro hw hb
    have hreg := hwritable.mpr hw
    have hmask : (regAt s.params a).definedBits = mask :=
      Reg.definedBits_of_writable (Reg.offset_regAt hi.params h4 (Reg.ne_reserved_of_writable hreg)) hreg
    have h0 : a ≠ 0x000 := by omega
    have hstatus : a ≠ 0x004 := by omega
    rw [State.memWrite_register (s := s.setPort rest) hr hb h0 hstatus] at hs
    refine ⟨_, hs, by simp, ((s.setPort rest).writeReg_flags v _).1.trans hb, by simp, by simpa using hr,
      fun b hb4 _ => ?_⟩
    rw [State.writeReg_params, ← hmask]
    exact State.readReg_writeReg_at (hi.setPort rest) v h4 hb4 hreg
  case ignored =>
    intro hw h0 hstatus hb
    have hreg : (regAt s.params a).writable = false := by simpa [hw] using hwritable
    rw [hs, State.memWrite_readOnly (s := s.setPort rest) hb h0 hstatus (State.writeReg_of_not_writable _ v hreg)]
    rfl

end Sys2Proof.Machine

/-! ### Proofs: host accesses and engine turns write apart, and latency changes no outcome (20_memory.md R60, R64, R65) -/

namespace Sys2Proof.Machine

open Sys2Proof

/-- An idle turn of the engine changes no piece of the block's own state (R185). -/
theorem engineStep_sameBlock_of_idle {s t : State} (hb : s.busy = false) (h : engineStep s = .next t) : s.SameBlock t := by
  obtain rfl := Host.Outcome.next.inj ((engineStep_of_idle hb).symm.trans h)
  simp [State.SameBlock]

/-- Settles O53: by the input that the step takes; each of the four cases leaves one input to look at. -/
theorem readsAndIdleTurnsChangeNothing : Obligations.ReadsAndIdleTurnsChangeNothing := by
  intro s t hs hcase
  obtain he | ⟨a, n, rest, hp, _, hr⟩ | ⟨a, v, rest, hp, _, rfl⟩ | ⟨b, rest, hp, rfl⟩ := step_cases hs
  · obtain ⟨hp, he⟩ | ⟨rest, hp, he⟩ := he
    · exact engineStep_sameBlock_of_idle (by simpa [hp] using hcase) he
    · exact engineStep_sameBlock_of_idle (s := s.setPort rest) (by simpa [hp] using hcase) he
  · exact State.hostRead_sameBlock (s := s.setPort rest) hr
  · have hr : s.inReset = true := by simpa [hp] using hcase
    rw [State.memWrite_of_inReset (s := s.setPort rest) hr]
    simp [State.SameBlock]
  · obtain ⟨hr, rfl⟩ : s.inReset = false ∧ b = false := by simpa [hp] using hcase
    simp [State.setReset, hr, State.SameBlock]

/-- A host write with a next state is the write of the offset (R67). -/
theorem State.eq_memWrite_of_hostWrite {s t : State} {a n : Nat} {v : Word} (h : s.hostWrite a n v = .next t) :
    t = s.memWrite a v := by
  unfold State.hostWrite at h
  split at h <;> cases h
  rfl

/-- A host write changes no PB entry. -/
theorem State.memWrite_pbAt (s : State) (a : Nat) (v : Word) (i : Nat) : (s.memWrite a v).pbAt i = s.pbAt i := by
  simp [State.pbAt]

/-- Settles O55: the frame of a host write, and the frame of the engine's turn. -/
theorem hostAndEngineWriteApart : Obligations.HostAndEngineWriteApart := by
  intro s t hs
  refine ⟨fun ⟨a, v, rest, hp⟩ => ?write, fun hturn => ?turn⟩
  case write =>
    obtain rfl := State.eq_memWrite_of_hostWrite ((step_cons hp).symm.trans hs)
    exact ⟨by simp, (s.setPort rest).memWrite_pbAt a v, by simp, by simp⟩
  case turn =>
    have frame {u : State} (he : engineStep u = .next t) : t.regs = u.regs ∧ t.keys = u.keys ∧ t.haz = u.haz ∧
        t.latch = u.latch ∧ t.params = u.params ∧ t.inReset = u.inReset := by
      obtain ⟨hp, hr, _, hh, hl, hg, hk, _, _⟩ := engineStep_sameInputs he
      exact ⟨hg, hk, hh, hl, hp, hr⟩
    obtain hp | ⟨rest, hp⟩ := hturn
    · exact frame (by simpa [step, hp] using hs)
    · exact frame (u := s.setPort rest) (by simpa [step_cons hp, handle] using hs)

/-! ### A latched command waiting for the engine's turn -/

/-- In `t` the command latched in `s` still waits, and it would read the same. -/
structure StillLatched (s t : State) : Prop extends SameReads s t where
  busy : t.busy = s.busy
  latch : t.latch = s.latch

theorem StillLatched.refl (s : State) : StillLatched s s :=
  ⟨⟨rfl, rfl, rfl, rfl, rfl, rfl⟩, rfl, rfl⟩

theorem StillLatched.trans {s t u : State} (h : StillLatched s t) (h' : StillLatched t u) : StillLatched s u where
  params := h'.params.trans h.params
  regs := h'.regs.trans h.regs
  keys := h'.keys.trans h.keys
  pulseCount := h'.pulseCount.trans h.pulseCount
  pb := h'.pb.trans h.pb
  pbDraw := h'.pbDraw.trans h.pbDraw
  busy := h'.busy.trans h.busy
  latch := h'.latch.trans h.latch

/-- Which inputs are pending is no part of what a command reads. -/
theorem StillLatched.setPort {s t : State} (h : StillLatched s t) (p q : List PortEvent) :
    StillLatched (s.setPort p) (t.setPort q) :=
  ⟨⟨h.params, h.regs, h.keys, h.pulseCount, h.pb, h.pbDraw⟩, h.busy, h.latch⟩

/-- A read leaves a latched command as it is (R64). -/
theorem StillLatched.of_sameBlock {s t : State} (h : s.SameBlock t) : StillLatched s t := by
  obtain ⟨hp, _, hb, _, _, _, hl, hg, hk, hc, hpb, hd⟩ := h
  exact ⟨⟨hp, hg, hk, hc, hpb, hd⟩, hb, hl⟩

/-- While BUSY = 1 a host write can do no more than set or clear HAZ (R65, R202). -/
theorem State.memWrite_of_busy {s : State} (hb : s.busy = true) (a : Nat) (v : Word) :
    ∃ b, s.memWrite a v = s.setHaz b := by
  cases hr : s.inReset with
  | true => exact ⟨s.haz, State.memWrite_of_inReset hr a v⟩
  | false =>
    by_cases ha : a = 0x004
    · subst ha; exact ⟨_, State.memWrite_status hr v⟩
    · exact ⟨true, State.memWrite_hazard hr hb ha v⟩

/-- While BUSY = 1 a host access is one step, and it leaves the latched command as it is (R65). -/
theorem step_hostAccess {s : State} {e : PortEvent} {rest : List PortEvent} (hb : s.busy = true)
    (he : e.isHostAccess = true) (hp : s.port = e :: rest) :
    ∃ t, step s = .next t ∧ t.port = rest ∧ StillLatched s t := by
  rw [step_cons hp]
  cases e with
  | engine => cases he
  | reset b => cases he
  | read a n =>
    have hadm : admitted a n = true := he
    have hr : (s.setPort rest).hostRead a n =
        .next (((s.setPort rest).memRead a).2.reply ((s.setPort rest).memRead a).1) := by
      simp [State.hostRead, hadm]
    refine ⟨_, hr, ?_, .of_sameBlock (State.hostRead_sameBlock (s := s.setPort rest) hr)⟩
    obtain e | e := (s.setPort rest).memRead_state a <;> rw [e] <;> rfl
  | write a n v =>
    have hadm : admitted a n = true := he
    obtain ⟨b, hw⟩ := State.memWrite_of_busy (s := s.setPort rest) hb a v
    exact ⟨(s.setPort rest).setHaz b, by simp [handle, State.hostWrite, hadm, hw], rfl,
      ⟨rfl, rfl, rfl, rfl, rfl, rfl⟩, rfl, rfl⟩

/-- So do any number of them, one after the other. -/
theorem run_hostAccesses {s : State} {es tail : List PortEvent} (hb : s.busy = true)
    (hes : ∀ e ∈ es, e.isHostAccess = true) (hp : s.port = es ++ tail) :
    ∃ t, core.run es.length s = .next t ∧ t.port = tail ∧ StillLatched s t := by
  induction es generalizing s with
  | nil => exact ⟨s, run_zero s, hp, .refl s⟩
  | cons e es ih =>
    obtain ⟨he, hes⟩ := List.forall_mem_cons.mp hes
    obtain ⟨t, hst, htp, ht⟩ := step_hostAccess hb he hp
    obtain ⟨u, hu, hup, htu⟩ := ih (ht.busy.trans hb) hes htp
    exact ⟨u, (run_succ hst es.length).trans hu, hup, ht.trans htu⟩

theorem SameOutcome.setBusy {s t : State} (h : SameOutcome s t) (b : Bool) : SameOutcome (s.setBusy b) (t.setBusy b) :=
  ⟨h.err, h.errInfo, h.pulseCount, h.visible⟩

/-- The engine's turn gives the latched command's outcome, whichever of the two states it is taken from. -/
theorem StillLatched.engineStep {s t : State} (h : StillLatched s t) (hb : s.busy = true) :
    ∃ u v, engineStep s = .next u ∧ engineStep t = .next v ∧ SameOutcome u v := by
  have hbt : t.busy = true := h.busy.trans hb
  obtain ⟨_, i, u, hd, hu, e⟩ | ⟨_, r, hd, e⟩ | ⟨hidle, _⟩ := engineStep_cases s
  · obtain ⟨v, hv, same⟩ := h.exec i hu
    exact ⟨_, _, e, by simp [Machine.engineStep, hbt, h.latch, hd, hv, clearBusy], same.setBusy false⟩
  · exact ⟨_, _, e, by simp [Machine.engineStep, hbt, h.latch, hd, clearBusy],
      (SameOutcome.raiseErr s t (.illegal r)).setBusy false⟩
  · simp [hb] at hidle

/-- Settles O56: the accesses leave the command latched, and the engine's turn after them gives its outcome. -/
theorem latencyDoesNotChangeTheOutcome : Obligations.LatencyDoesNotChangeTheOutcome := by
  intro s es rest hb hes hp
  obtain ⟨t, ht, htp, waits⟩ := run_hostAccesses hb hes hp
  have hstep : step t = engineStep (t.setPort rest) := step_cons htp
  obtain ⟨u0, u, hu0, hu, same⟩ := (waits.setPort [] rest).engineStep hb
  have hrun : core.run (es.length + 1) s = .next u := (run_add ht 1).trans (run_succ (hstep.trans hu) 0)
  obtain ⟨_, _, hub, _, _, hug, huk, hup, _⟩ := engineStep_sameInputs hu
  exact ⟨t, u, u0, ht, hrun, hu0, waits.busy.trans hb, waits.latch, waits.regs, waits.keys,
    hub, hug.trans waits.regs, huk.trans waits.keys, hup, same.err, same.errInfo, same.pulseCount, same.visible⟩

end Sys2Proof.Machine

/-! ### Proofs: decoding and encoding (30_encoding.md R81 to R85) -/

namespace Sys2Proof

/-! ### The decoder by the fields' numbers -/

/-- The test on OP in numbers (R81). -/
theorem opField_eq_iff {w : Word} {c : BitVec 8} : opField w = c ↔ w.toNat % 2 ^ 8 = c.toNat := by
  rw [← BitVec.toNat_inj, opField_toNat]

/-- The test on RSV in numbers (R81). -/
theorem rsvField_eq_zero_iff {w : Word} : rsvField w = 0 ↔ w.toNat / 2 ^ 16 = 0 := by
  rw [← BitVec.toNat_inj, rsvField_toNat]
  rfl

/-- The test on KEY in numbers (R81). -/
theorem keyField_eq_zero_iff {w : Word} : keyField w = 0 ↔ w.toNat / 2 ^ 8 % 2 ^ 8 = 0 := by
  rw [← BitVec.toNat_inj, keyField_toNat]
  rfl

/-- A word with a command's fields decodes to the command. -/
theorem decode_of_fields {w : Word} {i : Instr} (hop : w.toNat % 2 ^ 8 = i.opcode.toNat)
    (hrsv : w.toNat / 2 ^ 16 = 0) (hkey : w.toNat / 2 ^ 8 % 2 ^ 8 = i.key) : decode w = .ok i := by
  have hop := opField_eq_iff.mpr hop
  have hrsv := rsvField_eq_zero_iff.mpr hrsv
  cases i with
  | nop => simp [decode, hop, hrsv, keyField_eq_zero_iff.mpr hkey, Instr.opcode]
  | clear => simp [decode, hop, hrsv, keyField_eq_zero_iff.mpr hkey, Instr.opcode]
  | frame k => simp [decode, hop, hrsv, (keyField_toNat w).trans hkey, Instr.opcode, Instr.key]
  | gen k => simp [decode, hop, hrsv, (keyField_toNat w).trans hkey, Instr.opcode, Instr.key]
  | synth => simp [decode, hop, hrsv, keyField_eq_zero_iff.mpr hkey, Instr.opcode]
  | expand => simp [decode, hop, hrsv, keyField_eq_zero_iff.mpr hkey, Instr.opcode]

/-- A word whose OP is defined, whose RSV is 0 and whose KEY is 0 where none is taken has the fields of a command. -/
theorem exists_instr_of_fields {op key : Nat} (hop : op ≤ 5) (hkey : op = 0 ∨ op = 1 ∨ op = 4 ∨ op = 5 → key = 0) :
    ∃ i : Instr, op = i.opcode.toNat ∧ key = i.key := by
  obtain rfl | rfl | rfl | rfl | rfl | rfl : op = 0 ∨ op = 1 ∨ op = 2 ∨ op = 3 ∨ op = 4 ∨ op = 5 := by omega
  · exact ⟨.nop, rfl, hkey (by decide)⟩
  · exact ⟨.clear, rfl, hkey (by decide)⟩
  · exact ⟨.frame key, rfl, rfl⟩
  · exact ⟨.gen key, rfl, rfl⟩
  · exact ⟨.synth, rfl, hkey (by decide)⟩
  · exact ⟨.expand, rfl, hkey (by decide)⟩

/-- All that the decoder can answer, by the three tests in the order of R84; the four cases exclude each other. -/
theorem decode_cases (w : Word) :
    let op := w.toNat % 2 ^ 8
    let key := w.toNat / 2 ^ 8 % 2 ^ 8
    let rsv := w.toNat / 2 ^ 16
    let noKey := op = 0 ∨ op = 1 ∨ op = 4 ∨ op = 5
    (5 < op ∧ decode w = .error .undefinedOpcode) ∨
    (op ≤ 5 ∧ rsv ≠ 0 ∧ decode w = .error .reservedNotZero) ∨
    (noKey ∧ rsv = 0 ∧ key ≠ 0 ∧ decode w = .error .keyNotTaken) ∨
    ∃ i, op = i.opcode.toNat ∧ rsv = 0 ∧ key = i.key ∧ decode w = .ok i := by
  intro op key rsv noKey
  have undefined : 0x05#8 < opField w ↔ 5 < op := by rw [BitVec.lt_def, opField_toNat]; rfl
  by_cases hop : 5 < op
  · exact .inl ⟨hop, if_pos (undefined.mpr hop)⟩
  refine .inr ?_
  by_cases hrsv : rsv = 0
  case neg =>
    refine .inl ⟨by omega, hrsv, ?_⟩
    rw [decode, if_neg (mt undefined.mp hop), if_pos (mt rsvField_eq_zero_iff.mp hrsv)]
  refine .inr ?_
  by_cases hkey : noKey ∧ key ≠ 0
  · refine .inl ⟨hkey.1, hrsv, hkey.2, ?_⟩
    rw [decode, if_neg (mt undefined.mp hop), if_neg (not_not.mpr (rsvField_eq_zero_iff.mpr hrsv)), if_pos]
    simp only [opField_eq_iff, ne_eq, keyField_eq_zero_iff]
    exact hkey
  · obtain ⟨i, hi, hk⟩ := exists_instr_of_fields (op := op) (key := key) (by omega)
      fun h => not_not.mp (not_and.mp hkey h)
    exact .inr ⟨i, hi, hrsv, hk, decode_of_fields hi hrsv hk⟩

/-- A word decodes to a command exactly when it has the command's fields. -/
theorem decode_eq_ok_iff {w : Word} {i : Instr} :
    decode w = .ok i ↔
      w.toNat % 2 ^ 8 = i.opcode.toNat ∧ w.toNat / 2 ^ 16 = 0 ∧ w.toNat / 2 ^ 8 % 2 ^ 8 = i.key := by
  refine ⟨fun h => ?_, fun ⟨hop, hrsv, hkey⟩ => decode_of_fields hop hrsv hkey⟩
  obtain ⟨_, e⟩ | ⟨_, _, e⟩ | ⟨_, _, _, e⟩ | ⟨j, hop, hrsv, hkey, e⟩ := decode_cases w <;> cases e.symm.trans h
  exact ⟨hop, hrsv, hkey⟩

/-- A command's opcode is at most 5, and its KEY is 0 unless the command is FRAME or GEN (R83). -/
theorem Instr.opcode_key_cases (i : Instr) :
    ((i.opcode.toNat = 0 ∨ i.opcode.toNat = 1 ∨ i.opcode.toNat = 4 ∨ i.opcode.toNat = 5) ∧ i.key = 0) ∨
      i.opcode.toNat = 2 ∨ i.opcode.toNat = 3 := by
  cases i <;> simp [Instr.opcode, Instr.key]

/-- When a word is illegal, and why (R84). -/
theorem decode_eq_error_iff (w : Word) :
    let op := w.toNat % 2 ^ 8
    let key := w.toNat / 2 ^ 8 % 2 ^ 8
    let rsv := w.toNat / 2 ^ 16
    let noKey := op = 0 ∨ op = 1 ∨ op = 4 ∨ op = 5
    (decode w = .error .undefinedOpcode ↔ 5 < op) ∧
    (decode w = .error .reservedNotZero ↔ op ≤ 5 ∧ rsv ≠ 0) ∧
    (decode w = .error .keyNotTaken ↔ noKey ∧ rsv = 0 ∧ key ≠ 0) := by
  intro op key rsv noKey
  obtain ⟨hop, e⟩ | ⟨hop, hrsv, e⟩ | ⟨hnoKey, hrsv, hkey, e⟩ | ⟨i, hop, hrsv, hkey, e⟩ := decode_cases w <;>
    simp only [e, Except.error.injEq, reduceCtorEq, true_iff, false_iff]
  · omega
  · omega
  · omega
  · have := i.opcode_key_cases
    omega

/-- Settles O2: the decoder's errors, then its commands by their fields. -/
theorem decodeFollowsTheFields : Obligations.DecodeFollowsTheFields := by
  intro w op key rsv noKey
  obtain ⟨undefined, reserved, noKeyTaken⟩ := decode_eq_error_iff w
  exact ⟨undefined, reserved, noKeyTaken, decode_eq_ok_iff, decode_eq_ok_iff, fun _ => decode_eq_ok_iff,
    fun _ => decode_eq_ok_iff, decode_eq_ok_iff, decode_eq_ok_iff, rfl, rfl, rfl⟩

/-! ### The round trips -/

/-- The fields of a well-formed command's word (R81). -/
theorem encode_fields {i : Instr} (h : i.WellFormed = true) :
    (encode i).toNat % 2 ^ 8 = i.opcode.toNat ∧ (encode i).toNat / 2 ^ 16 = 0 ∧
      (encode i).toNat / 2 ^ 8 % 2 ^ 8 = i.key := by
  have row : Laws.OpcodeRow.Statement i := by
    cases i with
    | nop => exact Laws.OpcodeRow.nop
    | clear => exact Laws.OpcodeRow.clear
    | frame k => exact Laws.OpcodeRow.frame k
    | gen k => exact Laws.OpcodeRow.gen k
    | synth => exact Laws.OpcodeRow.synth
    | expand => exact Laws.OpcodeRow.expand
  obtain ⟨hop, hkey, hrsv⟩ := row h
  exact ⟨hop, hrsv, hkey⟩

theorem decode_encode {i : Instr} (h : i.WellFormed = true) : decode (encode i) = .ok i :=
  decode_eq_ok_iff.mpr (encode_fields h)

/-- Decoding the byte lanes of a word that decodes leaves the bytes after it. -/
theorem decodeBytes_of_decode {w : Word} {i : Instr} (h : decode w = .ok i) (rest : List Byte) :
    decodeBytes (lanesOfWord w ++ rest) = .ok (i, rest) := by
  rw [decodeBytes_lanesOfWord, h]

/-- The opcode table numbers a word's bits as the word does. -/
theorem decodeTableWord_of_decode {w : Word} {i : Instr} (h : decode w = .ok i) : decodeTableWord 32 w.toNat = some i := by
  have bits : BitVec.ofNat 32 (w.toNat % 2 ^ 32) = w := by
    rw [Nat.mod_eq_of_lt w.isLt, BitVec.ofNat_toNat, BitVec.setWidth_eq]
  have lanes : decodeBytes (lanesOfWord w) = .ok (i, []) := by simpa using decodeBytes_of_decode h []
  rw [decodeTableWord, if_pos le_rfl, bits, lanes]

/-- Settles O3: the word has the command's fields; its lanes and its number are the word's. -/
theorem decodeOfEncodeIsTheCommand : Obligations.DecodeOfEncodeIsTheCommand := by
  intro i hi
  have h := decode_encode hi
  exact ⟨h, decodeBytes_of_decode h, decodeTableWord_of_decode h⟩

/-- The KEY field has eight bits, so a command whose index it holds is well formed (R81, R82). -/
theorem Instr.wellFormed_of_key_lt {i : Instr} (h : i.key < 2 ^ 8) : i.WellFormed = true := by
  cases i with
  | nop => rfl
  | clear => rfl
  | frame k => exact decide_eq_true h
  | gen k => exact decide_eq_true h
  | synth => rfl
  | expand => rfl

/-- Two words with the same fields are equal: the fields are all of the word (R81). -/
theorem eq_of_fields {w w' : Word} (hop : w.toNat % 2 ^ 8 = w'.toNat % 2 ^ 8) (hrsv : w.toNat / 2 ^ 16 = w'.toNat / 2 ^ 16)
    (hkey : w.toNat / 2 ^ 8 % 2 ^ 8 = w'.toNat / 2 ^ 8 % 2 ^ 8) : w = w' :=
  BitVec.eq_of_toNat_eq (by omega)

/-- Settles O4: the word and the command's word have the same fields. -/
theorem encodeOfDecodeIsTheWord : Obligations.EncodeOfDecodeIsTheWord := by
  intro w i h
  obtain ⟨hop, hrsv, hkey⟩ := decode_eq_ok_iff.mp h
  have hi : i.WellFormed = true := Instr.wellFormed_of_key_lt (hkey ▸ Nat.mod_lt _ (by decide))
  obtain ⟨hop', hrsv', hkey'⟩ := encode_fields hi
  exact ⟨hi, eq_of_fields (hop'.trans hop.symm) (hrsv'.trans hrsv.symm) (hkey'.trans hkey.symm)⟩

/-- Settles O1: the decoder evaluated on the ten words. -/
theorem specWordsDecode : Obligations.SpecWordsDecode := by
  unfold Obligations.SpecWordsDecode
  decide

/-! ### The opcode map (R83) -/

/-- A word is its three fields, RSV on the left (R81). -/
theorem fields_append (w : Word) : rsvField w ++ keyField w ++ opField w = w := by
  apply BitVec.eq_of_toNat_eq
  simp only [append_toNat, rsvField_toNat, keyField_toNat, opField_toNat]
  omega

/-- The mask of a command without a key leaves every bit, so it selects one word. -/
theorem OpcodeRow.selects_of_full_mask {r : OpcodeRow} (hm : r.mask = 0xFFFFFFFF) (w : Word) :
    r.selects w = true ↔ w = r.pattern := by
  have full : w &&& 0xFFFFFFFF = w := BitVec.and_allOnes
  rw [OpcodeRow.selects, hm, full, beq_iff_eq]

/-- The mask of FRAME and GEN leaves OP and RSV, whatever the KEY. -/
theorem OpcodeRow.selects_of_key_mask {r : OpcodeRow} (hm : r.mask = 0xFFFF00FF) (w : Word) :
    r.selects w = true ↔ w.toNat % 2 ^ 8 + 2 ^ 16 * (w.toNat / 2 ^ 16) = r.pattern.toNat := by
  have masked : w &&& 0xFFFF00FF = rsvField w ++ 0#8 ++ opField w := by
    calc w &&& 0xFFFF00FF
      _ = (rsvField w ++ keyField w ++ opField w) &&& (BitVec.allOnes 16 ++ 0#8 ++ BitVec.allOnes 8) := by
        rw [fields_append]; rfl
      _ = rsvField w ++ 0#8 ++ opField w := by
        simp only [BitVec.and_append, BitVec.and_allOnes, BitVec.and_zero]
  rw [OpcodeRow.selects, hm, beq_iff_eq, masked, ← BitVec.toNat_inj]
  simp only [append_toNat, rsvField_toNat, opField_toNat, BitVec.toNat_ofNat]
  omega

/-- A selected row is the command the word decodes to. -/
theorem OpcodeRow.decode_of_selects {r : OpcodeRow} (hr : r ∈ opcodeRows) {w : Word} (h : r.selects w = true) :
    ∃ i, decode w = .ok i ∧ i.mnemonic = r.mnemonic := by
  have keyed (c : Nat) (hc : c < 2 ^ 8) (h : w.toNat % 2 ^ 8 + 2 ^ 16 * (w.toNat / 2 ^ 16) = c) :
      w.toNat % 2 ^ 8 = c ∧ w.toNat / 2 ^ 16 = 0 := by omega
  simp only [opcodeRows, List.mem_cons, List.not_mem_nil, or_false] at hr
  obtain rfl | rfl | rfl | rfl | rfl | rfl := hr
  · obtain rfl := (selects_of_full_mask rfl w).mp h
    exact ⟨.nop, by decide, rfl⟩
  · obtain rfl := (selects_of_full_mask rfl w).mp h
    exact ⟨.clear, by decide, rfl⟩
  · obtain ⟨hop, hrsv⟩ := keyed 2 (by decide) ((selects_of_key_mask rfl w).mp h)
    exact ⟨.frame _, decode_of_fields hop hrsv rfl, rfl⟩
  · obtain ⟨hop, hrsv⟩ := keyed 3 (by decide) ((selects_of_key_mask rfl w).mp h)
    exact ⟨.gen _, decode_of_fields hop hrsv rfl, rfl⟩
  · obtain rfl := (selects_of_full_mask rfl w).mp h
    exact ⟨.synth, by decide, rfl⟩
  · obtain rfl := (selects_of_full_mask rfl w).mp h
    exact ⟨.expand, by decide, rfl⟩

/-- The row of a command selects every word that decodes to the command. -/
theorem OpcodeRow.exists_selects_of_decode {w : Word} {i : Instr} (h : decode w = .ok i) :
    ∃ r ∈ opcodeRows, r.selects w = true ∧ r.mnemonic = i.mnemonic := by
  obtain ⟨hop, hrsv, _⟩ := decode_eq_ok_iff.mp h
  have word : w = encode i := (encodeOfDecodeIsTheWord w i h).2.symm
  have keyed : w.toNat % 2 ^ 8 + 2 ^ 16 * (w.toNat / 2 ^ 16) = i.opcode.toNat := by omega
  cases i with
  | nop => exact ⟨opcodeRows[0], List.getElem_mem _, (selects_of_full_mask rfl w).mpr word, rfl⟩
  | clear => exact ⟨opcodeRows[1], List.getElem_mem _, (selects_of_full_mask rfl w).mpr word, rfl⟩
  | frame k => exact ⟨opcodeRows[2], List.getElem_mem _, (selects_of_key_mask rfl w).mpr keyed, rfl⟩
  | gen k => exact ⟨opcodeRows[3], List.getElem_mem _, (selects_of_key_mask rfl w).mpr keyed, rfl⟩
  | synth => exact ⟨opcodeRows[4], List.getElem_mem _, (selects_of_full_mask rfl w).mpr word, rfl⟩
  | expand => exact ⟨opcodeRows[5], List.getElem_mem _, (selects_of_full_mask rfl w).mpr word, rfl⟩

/-- A mnemonic names one row. -/
theorem OpcodeRow.eq_of_mnemonic_eq : ∀ r ∈ opcodeRows, ∀ r' ∈ opcodeRows, r.mnemonic = r'.mnemonic → r = r' := by
  decide

/-- Settles O5: two selected rows both name the one command that the word decodes to. -/
theorem opcodeRowsAreDisjointAndDecode : Obligations.OpcodeRowsAreDisjointAndDecode := by
  refine ⟨rfl, fun w => ⟨fun r _ => by simp [OpcodeRow.selects], fun r hr r' hr' h h' => ?_,
    fun r hr h => OpcodeRow.decode_of_selects hr h, fun i h => OpcodeRow.exists_selects_of_decode h⟩⟩
  obtain ⟨i, hd, hi⟩ := OpcodeRow.decode_of_selects hr h
  obtain ⟨j, hd', hj⟩ := OpcodeRow.decode_of_selects hr' h'
  obtain rfl : i = j := Except.ok.inj (hd.symm.trans hd')
  exact OpcodeRow.eq_of_mnemonic_eq r hr r' hr' (hi.symm.trans hj)

end Sys2Proof

/-! ### Proofs: the engine's turn on a latched word, and RUN (30_encoding.md R85, R89) -/

namespace Sys2Proof.Machine

open Sys2Proof

/-- The engine's turn on an illegal word is the illegal outcome (R85). -/
theorem engineStep_of_illegal {s : State} {r : Illegal} (hb : s.busy = true) (hd : decode s.latch = .error r) :
    engineStep s = .next ((s.setBusy false).raiseErr (.illegal r)) := by
  simp only [engineStep, hb, hd]
  rfl

/-- The engine's turn on a command's word is the command, and BUSY cleared (R200). -/
theorem engineStep_of_command {s t : State} {i : Instr} (hb : s.busy = true) (hd : decode s.latch = .ok i)
    (he : exec i s = .next t) : engineStep s = .next (t.setBusy false) := by
  simp [engineStep, hb, hd, he, clearBusy]

/-- When the engine's turn stands first in the port, it is the next step (R201). -/
theorem step_engine_of_command {s t : State} {i : Instr} {rest : List PortEvent} (he : exec i (s.setPort rest) = .next t)
    (hp : s.port = .engine :: rest) (hb : s.busy = true) (hd : decode s.latch = .ok i) :
    step s = .next (t.setBusy false) :=
  (step_cons hp).trans (engineStep_of_command (s := s.setPort rest) hb hd he)

/-- Settles O6: the illegal outcome, with the number of the decoder's reason. -/
theorem illegalWordEndsWithIllegal : Obligations.IllegalWordEndsWithIllegal := by
  intro s hb hp op key rsv
  obtain ⟨undefined, reserved, noKeyTaken⟩ := decode_eq_error_iff s.latch
  have ends {r : Illegal} (hd : decode s.latch = .error r) :
      ∃ t, step s = .next t ∧ ErrorOutcome (s.setBusy false) t 5 (BitVec.ofNat 8 r.number) := by
    refine ⟨_, ?_, State.raiseErr_outcome (s.setBusy false) (.illegal r)⟩
    rw [step, hp]
    exact engineStep_of_illegal hb hd
  refine ⟨fun hop => ends (undefined.mpr hop), fun hop hbad => ?_⟩
  by_cases hrsv : rsv = 0
  · obtain ⟨hnoKey, hkey⟩ := hbad.resolve_left (not_not.mpr hrsv)
    exact ends (noKeyTaken.mpr ⟨hnoKey, hrsv, hkey⟩)
  · exact ends (reserved.mpr ⟨hop, hrsv⟩)

/-! ### RUN -/

/-- The CMD write of a command, with the reset input released and BUSY = 0, latches its word (R23, R88). -/
theorem step_cmd {s : State} {i : Instr} {rest : List PortEvent} (hr : s.inReset = false) (hb : s.busy = false)
    (hp : s.port = HostProgram.cmd i :: rest) :
    step s = .next (((s.setPort rest).setLatch (encode i)).setBusy true) := by
  rw [step_write hp rfl, State.memWrite_cmd (s := s.setPort rest) hr hb]

/-- A read of STATUS returns its word and changes nothing else, whether BUSY is 0 or 1 (R24). -/
theorem step_readStatus {s : State} {rest : List PortEvent} (hp : s.port = HostProgram.rd 0x004 :: rest) :
    step s = .next ((s.setPort rest).reply (statusWord s)) := by
  rw [step_read hp rfl, State.memRead_visible rfl]
  rfl

/-- The state after `n` reads of STATUS, with `tail` pending. -/
def State.polled (s : State) (n : Nat) (tail : List PortEvent) : State :=
  { s with port := tail, replies := s.replies ++ List.replicate n (statusWord s) }

/-- `n` polls before the engine's turn all return the same STATUS (R89, R201). -/
theorem run_polls {s : State} {n : Nat} {tail : List PortEvent}
    (hp : s.port = List.replicate n (HostProgram.rd 0x004) ++ tail) : core.run n s = .next (s.polled n tail) := by
  induction n generalizing s with
  | zero =>
    obtain rfl : s.port = tail := hp
    simp [run_zero, State.polled]
  | succ n ih =>
    rw [run_succ (step_readStatus hp), ih rfl]
    simp only [State.polled, State.reply_replies, List.append_assoc]
    rfl

/-- POLL while a command is latched (R89): every read before the engine's turn returns the STATUS of before, the turn gives
the command's outcome, and the last read returns the STATUS it leaves. The outcome is that of the command performed from
any state `s₀` that it reads as `s`. -/
theorem run_poll {s₀ s t : State} {i : Instr} {n : Nat} {rest : List PortEvent} (hb : s.busy = true)
    (hd : decode s.latch = .ok i) (hp : s.port = HostProgram.poll n ++ rest) (reads : SameReads s₀ s)
    (ht : exec i s₀ = .next t) :
    ∃ u, core.run (n + 2) s = .next u ∧ u.haz = s.haz ∧ SameOutcome t u ∧ u.busy = false ∧
      u.regs = s.regs ∧ u.keys = s.keys ∧ u.port = rest ∧
      u.replies = s.replies ++ List.replicate n (statusWord s) ++ [statusWord u] := by
  have hpolls : core.run n s = .next (s.polled n (.engine :: HostProgram.rd 0x004 :: rest)) :=
    run_polls (by simp [hp, HostProgram.poll])
  have reads' : SameReads s₀ ((s.polled n (.engine :: HostProgram.rd 0x004 :: rest)).setPort (HostProgram.rd 0x004 :: rest)) :=
    ⟨reads.params, reads.regs, reads.keys, reads.pulseCount, reads.pb, reads.pbDraw⟩
  obtain ⟨v, hv, same⟩ := reads'.exec i ht
  obtain ⟨_, _, _, hhaz, _, hregs, hkeys, hport, hreplies⟩ := exec_sameInputs hv
  have hturn := step_engine_of_command hv rfl hb hd
  have hread := step_readStatus (s := v.setBusy false) hport
  refine ⟨((v.setBusy false).setPort rest).reply (statusWord (v.setBusy false)), ?_, hhaz,
    ⟨same.err, same.errInfo, same.pulseCount, same.visible⟩, rfl, hregs, hkeys, rfl, ?_⟩
  · rw [run_add hpolls, run_succ hturn, run_succ hread, run_zero]
  · rw [State.reply_replies, State.setPort_replies, State.setBusy_replies, hreplies]
    rfl

/-- Settles O57: the CMD write, then POLL, with each STATUS as a number. -/
theorem runCompletesTheCommand : Obligations.RunCompletesTheCommand := by
  intro s i n rest hi hb hr hp
  obtain ⟨t, ht⟩ := exec_next i s
  have hcmd := step_cmd hr hb hp
  obtain ⟨u, hu, hhaz, same, hbusy, hregs, hkeys, hport, hreplies⟩ :=
    run_poll (s₀ := s) (s := ((s.setPort (HostProgram.poll n ++ rest)).setLatch (encode i)).setBusy true) rfl
      (decode_encode hi) rfl ⟨rfl, rfl, rfl, rfl, rfl, rfl⟩ ht
  refine ⟨t, u, ht, (run_succ hcmd (n + 2)).trans hu, hbusy, hhaz, same.err, same.errInfo, same.pulseCount, same.visible,
    hregs, hkeys, hport, ?_⟩
  rw [hreplies, statusWord_eq, statusWord_eq u, hbusy, hhaz, same.err]
  simp

end Sys2Proof.Machine

/-! ### Proofs: field values and bit order (40_bitfields.md)

What the lists of bits hold, element by element, and the numbers they denote; MSB is LSB on the reversed list. -/

namespace Sys2Proof.Machine

open Sys2Proof

/-! ### The bits of a value in order -/

@[simp] theorem bitList_length (v : DWord) (W : Nat) : (bitList v W).length = W := by
  induction W with
  | zero => rfl
  | succ W ih => simp [bitList, ih]

theorem txBits_msb (v : DWord) (W : Nat) : txBits false v W = bitList v W := rfl

theorem txBits_lsb (v : DWord) (W : Nat) : txBits true v W = (bitList v W).reverse := rfl

@[simp] theorem txBits_length (first : Bool) (v : DWord) (W : Nat) : (txBits first v W).length = W := by
  cases first <;> simp [txBits]

theorem bitList_getElem? (v : DWord) {W j : Nat} (h : j < W) : (bitList v W)[j]? = some (v.getLsbD (W - 1 - j)) := by
  induction W generalizing j with
  | zero => omega
  | succ W ih =>
    cases j with
    | zero => rfl
    | succ j => simpa [bitList, Nat.sub_sub, Nat.add_comm] using ih (j := j) (by omega)

theorem txBits_lsb_getElem? (v : DWord) {W j : Nat} (h : j < W) : (txBits true v W)[j]? = some (v.getLsbD j) := by
  have hj : W - 1 - (W - 1 - j) = j := by omega
  rw [txBits_lsb, List.getElem?_reverse (by simpa using h), bitList_length, bitList_getElem? v (by omega), hj]

/-- Settles O13: the elements of BitList, and of its reverse. -/
theorem bitsStandInTransmissionOrder : Obligations.BitsStandInTransmissionOrder :=
  fun v W => ⟨bitList_length v W, txBits_length true v W, txBits_length false v W, fun _ hj =>
    ⟨bitList_getElem? v hj, bitList_getElem? v hj, txBits_lsb_getElem? v hj⟩⟩

/-! ### The number a list of bits or of hex digits denotes -/

theorem natOfBits_cons (b : Bool) (bs : List Bool) : natOfBits (b :: bs) = b.toNat * 2 ^ bs.length + natOfBits bs := by
  cases b <;> simp [natOfBits]

theorem natOfBits_bitList (v : DWord) (W : Nat) : natOfBits (bitList v W) = v.toNat % 2 ^ W := by
  induction W with
  | zero => simp [bitList, natOfBits, Nat.mod_one]
  | succ W ih =>
    rw [bitList, natOfBits_cons, bitList_length, ih, BitVec.getLsbD, Nat.toNat_testBit, Nat.mod_pow_succ, Nat.mul_comm,
      Nat.add_comm]

@[simp] theorem hexDigits_length (v n : Nat) : (hexDigits v n).length = n := by
  induction n with
  | zero => rfl
  | succ n ih => simp [hexDigits, ih]

theorem hexDigits_lt (v n : Nat) : ∀ d ∈ hexDigits v n, d < 16 := by
  induction n with
  | zero => simp [hexDigits]
  | succ n ih =>
    rw [hexDigits, List.forall_mem_cons]
    exact ⟨Nat.mod_lt _ (by decide), ih⟩

theorem natOfHex_hexDigits (v n : Nat) : natOfHex (hexDigits v n) = v % 16 ^ n := by
  induction n with
  | zero => simp [hexDigits, natOfHex, Nat.mod_one]
  | succ n ih => rw [hexDigits, natOfHex, hexDigits_length, ih, Nat.mod_pow_succ, Nat.mul_comm, Nat.add_comm]

/-- `ceil(W/4)` hex digits hold W bits (R102). -/
theorem two_pow_le_hexForm (W : Nat) : 2 ^ W ≤ 16 ^ ((W + 3) / 4) := by
  calc 2 ^ W ≤ 2 ^ (4 * ((W + 3) / 4)) := Nat.pow_le_pow_right (by decide) (by omega)
    _ = 16 ^ ((W + 3) / 4) := Nat.pow_mul 2 4 _

/-- Settles O11: each form denotes the value modulo its range, and the value is in the range. -/
theorem fieldRoundTrips : Obligations.FieldRoundTrips := by
  intro v W _ hv
  refine ⟨?_, ?_, hexDigits_length _ _, hexDigits_lt _ _, List.reverse_reverse _, txBits_msb v W⟩
  · rw [natOfBits_bitList, Nat.mod_eq_of_lt hv]
  · rw [hexForm, natOfHex_hexDigits, Nat.mod_eq_of_lt (hv.trans_le (two_pow_le_hexForm W))]

/-! ### The value of bits in transmission order -/

theorem natOfBitsLsb_cons (b : Bool) (bs : List Bool) : natOfBitsLsb (b :: bs) = 2 * natOfBitsLsb bs + b.toNat := by
  cases b <;> simp [natOfBitsLsb, Nat.add_comm]

theorem natOfBitsLsb_concat (bs : List Bool) (b : Bool) :
    natOfBitsLsb (bs ++ [b]) = b.toNat * 2 ^ bs.length + natOfBitsLsb bs := by
  induction bs with
  | nil => simp [natOfBitsLsb_cons, natOfBitsLsb]
  | cons c cs ih =>
    rw [List.cons_append, natOfBitsLsb_cons, natOfBitsLsb_cons, ih, List.length_cons]
    ring

/-- MSB first is LSB first on the reversed list. -/
theorem natOfBits_eq_natOfBitsLsb_reverse (t : List Bool) : natOfBits t = natOfBitsLsb t.reverse := by
  induction t with
  | nil => rfl
  | cons b bs ih => rw [natOfBits_cons, List.reverse_cons, natOfBitsLsb_concat, List.length_reverse, ih]

theorem natOfBitsLsb_lt (t : List Bool) : natOfBitsLsb t < 2 ^ t.length := by
  induction t with
  | nil => decide
  | cons b bs ih =>
    have hb := b.toNat_lt
    rw [natOfBitsLsb_cons, List.length_cons]
    omega

theorem natOfBitsLsb_testBit (t : List Bool) (j : Nat) : (natOfBitsLsb t).testBit j = t.getD j false := by
  induction t generalizing j with
  | nil => simp [natOfBitsLsb]
  | cons b bs ih =>
    cases j with
    | zero => cases b <;> simp [natOfBitsLsb_cons, Nat.testBit_zero]
    | succ j =>
      have hdiv : (2 * natOfBitsLsb bs + b.toNat) / 2 = natOfBitsLsb bs := by
        have hb := b.toNat_lt
        omega
      rw [natOfBitsLsb_cons, Nat.testBit_succ, hdiv, ih, List.getD_cons_succ]

theorem natOfBitsLsb_eq_sum (t : List Bool) :
    natOfBitsLsb t = ((List.range t.length).map fun i => (t.getD i false).toNat * 2 ^ i).sum := by
  induction t with
  | nil => rfl
  | cons b bs ih =>
    rw [natOfBitsLsb_cons, ih, List.length_cons, List.range_succ_eq_map, ← List.sum_map_mul_left]
    simp [Function.comp_def, Nat.pow_succ', Nat.mul_left_comm, Nat.add_comm]

theorem natOfBits_eq_sum (t : List Bool) :
    natOfBits t = ((List.range t.length).map fun i => (t.getD i false).toNat * 2 ^ (t.length - 1 - i)).sum := by
  induction t with
  | nil => rfl
  | cons b bs ih =>
    rw [natOfBits_cons, ih, List.length_cons, List.range_succ_eq_map]
    simp [Function.comp_def, Nat.sub_sub, Nat.add_comm]

/-- A host that receives MSB first writes what it would write for the reversed bits received LSB first (R109). -/
theorem storedValue_msb (t : List Bool) : storedValue false t = storedValue true t.reverse :=
  congrArg (BitVec.ofNat 64) (natOfBits_eq_natOfBitsLsb_reverse t)

theorem storedValue_lsb_toNat {t : List Bool} (h : t.length ≤ 64) : (storedValue true t).toNat = natOfBitsLsb t := by
  have hlt : natOfBitsLsb t < 2 ^ 64 := (natOfBitsLsb_lt t).trans_le (Nat.pow_le_pow_right (by decide) h)
  exact Nat.mod_eq_of_lt hlt

theorem txBits_lsb_storedValue {t : List Bool} (h : t.length ≤ 64) : txBits true (storedValue true t) t.length = t := by
  refine List.ext_getElem? fun j => ?_
  by_cases hj : j < t.length
  · rw [txBits_lsb_getElem? _ hj, BitVec.getLsbD, storedValue_lsb_toNat h, natOfBitsLsb_testBit]
    simp [hj]
  · simp [Nat.not_lt.mp hj]

/-- Settles O12: LSB by the bits of the sum, MSB by LSB on the reversed list. -/
theorem storedValueIsSentInItsOrder : Obligations.StoredValueIsSentInItsOrder := by
  intro first t ht
  cases first with
  | true => exact ⟨(storedValue_lsb_toNat ht).trans (natOfBitsLsb_eq_sum t), txBits_lsb_storedValue ht⟩
  | false =>
    have hr : t.reverse.length ≤ 64 := by simpa using ht
    constructor
    · rw [storedValue_msb, storedValue_lsb_toNat hr, ← natOfBits_eq_natOfBitsLsb_reverse]
      exact natOfBits_eq_sum t
    · have sent := txBits_lsb_storedValue hr
      rw [txBits_lsb, List.length_reverse, List.reverse_inj] at sent
      rw [storedValue_msb, txBits_msb, sent]

/-! ### Each field of the frame reversed alone -/

/-- With LSB, a field's symbols are those of MSB, reversed (R106, R108). -/
theorem fieldSymbols_lsb {r : Regs} (h : r.pcfg.firstBit = true) (v : DWord) (W : Nat) :
    fieldSymbols r v W = (fieldSymbols { r with pcfg := { r.pcfg with firstBit := false } } v W).reverse := by
  rw [fieldSymbols, h, txBits_lsb, List.map_reverse]
  rfl

/-- Settles O14: the start pair reads no FIRSTBIT, an absent field is its own reverse, and a present one is `fieldSymbols`. -/
theorem lsbReversesEachFieldAlone : Obligations.LsbReversesEachFieldAlone := by
  intro k s h m
  have header : headerSymbols s.regs = (headerSymbols m.regs).reverse := by
    unfold headerSymbols
    rw [fieldSymbols_lsb h, apply_ite List.reverse]
    rfl
  have footer : footerSymbols s.regs = (footerSymbols m.regs).reverse := by
    unfold footerSymbols
    rw [fieldSymbols_lsb h, apply_ite List.reverse]
    rfl
  have data : dataSymbols k s = (dataSymbols k m).reverse := fieldSymbols_lsb h _ _
  rw [symbols, header, data, footer]
  rfl

end Sys2Proof.Machine

/-! ### Proofs: frames (41_frame.md)

The symbols of a frame written out; which check fails; and the loop of GEN, which never fails and gives the written-out
expansion. A command's outcome then is that of an error or of `Complete`. -/

namespace Sys2Proof.Machine

open Sys2Proof

/-! ### The symbols of a frame -/

theorem txBits_getElem? (first : Bool) (v : DWord) {W j : Nat} (h : j < W) :
    (txBits first v W)[j]? = some (v.getLsbD (if first then j else W - 1 - j)) := by
  cases first with
  | true => exact txBits_lsb_getElem? v h
  | false => exact bitList_getElem? v h

theorem fieldSymbols_eq_fieldPulses (r : Regs) (v : DWord) (W : Nat) : fieldSymbols r v W = fieldPulses r v W := by
  refine List.ext_getElem? fun j => ?_
  by_cases hj : j < W
  · simp [fieldSymbols, fieldPulses, txBits_getElem? _ v hj, List.getElem?_range hj, bitPair]
  · simp [fieldSymbols, fieldPulses, Nat.not_lt.mp hj]

theorem symbols_eq_framePulses (k : Nat) (s : State) : symbols k s = framePulses k s := by
  simp only [symbols, startSymbols, headerSymbols, dataSymbols, footerSymbols, fieldSymbols_eq_fieldPulses, framePulses]

/-- Settles O15: each field by its elements, the parts in the order they are written. -/
theorem symbolsAreStartHeaderDataFooter : Obligations.SymbolsAreStartHeaderDataFooter := symbols_eq_framePulses

@[simp] theorem fieldSymbols_length (r : Regs) (v : DWord) (W : Nat) : (fieldSymbols r v W).length = W := by
  simp [fieldSymbols]

theorem optional_length {α : Type} (b : Bool) (l : List α) : (if b then l else []).length = b.toNat * l.length := by
  cases b <;> simp

theorem symbols_length (k : Nat) (s : State) :
    (symbols k s).length =
      s.regs.present.startEn.toNat + s.regs.present.hdrEn.toNat * s.regs.pcfg.hdrSize.toNat +
        s.regs.pcfg.dataSize.toNat + s.regs.present.ftrEn.toNat * s.regs.pcfg.ftrSize.toNat := by
  simp [symbols, startSymbols, headerSymbols, dataSymbols, footerSymbols, optional_length, Nat.add_assoc]

/-- Settles O16: the parts' lengths; 1 for the start pair and at most 64 for each field. -/
theorem frameLengthIsTheSumOfItsParts : Obligations.FrameLengthIsTheSumOfItsParts := by
  refine fun k s => ⟨symbols_length k s, fun ok => ?_⟩
  have start := s.regs.present.startEn.toNat_le
  have header := Nat.mul_le_mul s.regs.present.hdrEn.toNat_le ok.hdrSize
  have footer := Nat.mul_le_mul s.regs.present.ftrEn.toNat_le ok.ftrSize
  have data := ok.dataSize
  rw [symbols_length]
  omega

/-! ### The checks -/

theorem fits_eq_false_iff {v : DWord} {W : Nat} : fits v W = false ↔ 2 ^ W ≤ v.toNat := by
  simp [fits]

theorem State.keyMissing_iff {s : State} {k : Nat} :
    s.keyMissing k = true ↔ s.params.nKeys ≤ k ∨ (s.keyAt k).valid = false := by
  simp [State.keyMissing]

theorem checkFrame_of_frameOk {k : Nat} {s : State} (ok : FrameOk k s) : checkFrame k s = none := by
  have header : ¬ (s.regs.present.hdrEn = true ∧ 2 ^ s.regs.pcfg.hdrSize.toNat ≤ s.regs.hdr.toNat) :=
    fun ⟨en, wide⟩ => (ok.header en).not_ge wide
  have footer : ¬ (s.regs.present.ftrEn = true ∧ 2 ^ s.regs.pcfg.ftrSize.toNat ≤ s.regs.ftr.toNat) :=
    fun ⟨en, wide⟩ => (ok.footer en).not_ge wide
  simp [checkFrame, fits_eq_false_iff, State.keyMissing_iff, Config.maxWidth, ok.zeroValid, ok.oneValid,
    ok.hdrSize.not_gt, ok.dataSize.not_gt, ok.ftrSize.not_gt, header, ok.keyIndex.not_ge, ok.keyValid,
    ok.keyCode.not_ge, footer]

/-- A failing check ends FRAME and GEN with its error (R123, R172). -/
theorem exec_of_failing_check {k : Nat} {s : State} {i : Instr} (hi : i ∈ [Instr.frame k, Instr.gen k]) {c : Cause}
    (hc : checkFrame k s = some c) : ∃ t, exec i s = .next t ∧ ErrorOutcome s t c.code c.info := by
  refine ⟨s.raiseErr c, ?_, s.raiseErr_outcome c⟩
  obtain rfl | rfl : i = .frame k ∨ i = .gen k := by simpa using hi
  · simp only [exec, execFrame, hc]
  · simp only [exec, execGen, hc]

/-- Settles O17: the checks passed before leave the one that fails. -/
theorem frameChecksInOrder : Obligations.FrameChecksInOrder := by
  intro k s i hi
  dsimp only
  have failsWith (c : Cause) := exec_of_failing_check (k := k) (s := s) hi (c := c)
  simp only [checkFrame, fits_eq_false_iff, State.keyMissing_iff, Config.maxWidth] at failsWith
  refine ⟨fun zero => failsWith .zeroPairMissing ?_, fun zero one => failsWith .onePairMissing ?_, fun zero one =>
    ⟨fun hdr => failsWith .hdrSizeInvalid ?_, fun hdr data => failsWith .dataSizeInvalid ?_,
    fun hdr data ftr => failsWith .ftrSizeInvalid ?_, fun hdr data ftr =>
    ⟨fun header => failsWith .headerTooWide ?_, fun header =>
    ⟨fun key => failsWith (.keyNotFound k) ?_, fun index valid =>
    ⟨fun code => failsWith .keyCodeTooWide ?_, fun code ftrEn footer => failsWith .footerTooWide ?_⟩⟩⟩⟩⟩
  · rw [if_pos zero]
  · simp [zero, one]
  · simp [zero, one, hdr]
  · simp [zero, one, hdr.not_gt, data]
  · simp [zero, one, hdr.not_gt, data.not_gt, ftr]
  · simp [zero, one, hdr.not_gt, data.not_gt, ftr.not_gt, header]
  · simp [zero, one, hdr.not_gt, data.not_gt, ftr.not_gt, header, key]
  · simp [zero, one, hdr.not_gt, data.not_gt, ftr.not_gt, header, index.not_ge, valid, code]
  · simp [zero, one, hdr.not_gt, data.not_gt, ftr.not_gt, header, index.not_ge, valid, code.not_ge, ftrEn, footer]

/-! ### How FRAME and GEN end -/

/-- A command that completes a sequence succeeds with it, or fails with CAPACITY (R173). -/
theorem State.complete_outcomes {s : State} {o : Host.Outcome State Fault Refusal} {seq : List Pulse}
    (h : o = .next (s.complete seq)) :
    (seq.length ≤ s.params.pulseCap → ∃ t, o = .next t ∧ SuccessOutcome s t seq) ∧
      (s.params.pulseCap < seq.length → ∃ t, o = .next t ∧ ErrorOutcome s t 4 0) :=
  ⟨fun le => ⟨_, h, State.complete_outcome le⟩,
    fun lt => ⟨_, h, State.complete_of_lt lt ▸ s.raiseErr_outcome .outputTooLong⟩⟩

/-- Settles O18: with every check passed FRAME completes the symbols. -/
theorem frameOutputsTheSymbols : Obligations.FrameOutputsTheSymbols := by
  intro k s ok
  apply State.complete_outcomes
  simp only [exec, execFrame, checkFrame_of_frameOk ok, symbols_eq_framePulses]

/-- With every check passed GEN finishes what its loop gives: `genCount` is its number of Pulses (R126, R173). -/
theorem exec_gen_of_check {k : Nat} {s : State} (hc : checkFrame k s = none) :
    exec (.gen k) s = .next (s.finish (genLoop s.params s.regs.present.startEn 0 (symbols k s))) := by
  obtain ⟨seq, hseq, hlen⟩ := genLoop_ok s.params s.regs.present.startEn 0 (symbols k s)
  simp only [exec, execGen, hc]
  rw [State.finishSized_ok hseq hlen, hseq]
  rfl

/-- Settles O20: a failing check raises its error in both; else the loop has the Pulses that were counted. -/
theorem genIsItsPseudocode : Obligations.GenIsItsPseudocode := by
  intro k s
  cases hc : checkFrame k s with
  | some c => simp only [exec, execGen, hc]
  | none => exact exec_gen_of_check hc

/-! ### The expansion written out -/

/-- 19 carrier cycles last 500 µs, so the grid repeats (R146). -/
theorem cycleEnd_add_periods (tie : Tie) (q m : Nat) : cycleEnd tie (19 * q + m) = 500 * q + cycleEnd tie m := by
  rw [cycleEnd_eq, cycleEnd_eq]
  omega

/-- The off value of carrier cycle `c` is that of the 19-cycle pattern (R146). -/
theorem cycleEnd_off_eq_pattern (tie : Tie) (c : Nat) :
    cycleEnd tie (c + 1) - (cycleEnd tie c + 9) = offPattern.getD (c % 19) 0 := by
  have onePeriod : ∀ r < 19, cycleEnd tie (r + 1) - (cycleEnd tie r + 9) = offPattern.getD r 0 := by
    simp only [cycleEnd_eq]
    decide
  have start := cycleEnd_add_periods tie (c / 19) (c % 19)
  have next := cycleEnd_add_periods tie (c / 19) (c % 19 + 1)
  rw [← Nat.add_assoc] at next
  rw [Nat.div_add_mod] at start next
  rw [← onePeriod _ (Nat.mod_lt c (by decide)), start, next]
  omega

theorem synth_eq_carrierPulses (tie : Tie) (on : Word) : synth tie on = .ok (carrierPulses (cycles tie on.toNat)) := by
  simp only [synth_ok, cycleEnd_off_eq_pattern, subPulse, carrierOn_eq]
  rfl

theorem expandSym_eq_symbolExpansion (tie : Tie) (p : Pulse) : expandSym tie p = .ok (symbolExpansion tie p) := by
  simp only [expandSym, synth_eq_carrierPulses]
  rfl

/-- From where no symbol is passed through any more, the loop of GEN expands every symbol (R126). -/
theorem genLoop_expands {p : Params} {startEn : Bool} {j : Nat} (hp : ∀ i, j ≤ i → passedThrough p startEn i = false)
    (syms : List Pulse) : genLoop p startEn j syms = .ok (syms.flatMap (symbolExpansion p.roundTie)) := by
  induction syms generalizing j with
  | nil => rfl
  | cons sym rest ih =>
    have more := ih fun i hi => hp i (Nat.le_of_succ_le hi)
    simp [genLoop, hp j le_rfl, expandSym_eq_symbolExpansion, more]

theorem genLoop_eq_frameExpansion (p : Params) (startEn : Bool) (syms : List Pulse) :
    genLoop p startEn 0 syms = .ok (frameExpansion p startEn syms) := by
  unfold frameExpansion
  cases hpass : startEn && !p.startModulated with
  | false => exact genLoop_expands (fun i _ => by simp [passedThrough, Bool.and_assoc, hpass]) syms
  | true =>
    cases syms with
    | nil => rfl
    | cons sym rest =>
      have more : genLoop p startEn 1 rest = _ :=
        genLoop_expands (fun i hi => by simp [passedThrough, Nat.ne_of_gt hi]) rest
      simp [genLoop, passedThrough, hpass, more]

/-- Settles O19: with every check passed GEN completes the expansion of the symbols. -/
theorem genOutputsTheExpandedFrame : Obligations.GenOutputsTheExpandedFrame := by
  intro k s ok
  apply State.complete_outcomes
  rw [exec_gen_of_check (checkFrame_of_frameOk ok), symbols_eq_framePulses, genLoop_eq_frameExpansion]
  rfl

/-! ### The stop pair and the gap -/

/-- Settles O21: the checks and the symbols name none of these registers, so the two runs end alike up to them. -/
theorem stopPairAndGapAreNeverRead : Obligations.StopPairAndGapAreNeverRead := by
  intro i s stop gap stopEn alter
  have ends : EndsAlike (fun t => t.setRegs (alter t.regs)) s { s with regs := alter s.regs } :=
    ⟨rfl, fun _ => rfl, fun _ _ => rfl⟩
  cases i with
  | nop => exact ⟨_, rfl, rfl⟩
  | clear => exact ⟨_, rfl, rfl⟩
  | frame k => exact ends.exec_frame rfl rfl
  | gen k => exact ends.exec_gen rfl rfl rfl
  | synth => exact ends.exec_synth rfl
  | expand => exact ends.exec_expand rfl rfl

end Sys2Proof.Machine

/-! ### Proofs: carrier synthesis (42_carrier.md)

Both tie rules round to a nearest integer, and the corner cases, the capacity thresholds and the bound on the duration
follow from that alone; only R144 and R152 look at the ties. SYNTH and EXPAND then complete the written-out Pulses. -/

namespace Sys2Proof.Machine

open Sys2Proof

/-! ### The cycle count -/

/-- At a tie HALF_UP takes the upper neighbour and HALF_EVEN the even one (R142). -/
theorem roundRat_of_tie {num den : Nat} (h : 2 * (num % den) = den) :
    roundRat .halfUp num den = num / den + 1 ∧
      roundRat .halfEven num den = if num / den % 2 = 0 then num / den else num / den + 1 := by
  simp [roundRat, h]

/-- A tie of the cycle count is at on mod 500 = 250 (R152). -/
theorem cycles_tie_iff (on : Nat) : 38 * on % 1000 = 500 ↔ on % 500 = 250 := by omega

/-- Away from a tie both rules add one half and take the floor. -/
theorem cycles_of_no_tie (tie : Tie) {on : Nat} (h : 38 * on % 1000 ≠ 500) : cycles tie on = (38 * on + 500) / 1000 := by
  have round : cycles tie on = roundRat tie (38 * on) 1000 := rfl
  rw [round, roundRat_of_no_tie tie (by omega)]
  split <;> omega

/-- The rounding rules at a tie of the cycle count. -/
theorem cycles_of_tie {on : Nat} (h : 38 * on % 1000 = 500) :
    cycles .halfUp on = 38 * on / 1000 + 1 ∧
      cycles .halfEven on = if 38 * on / 1000 % 2 = 0 then 38 * on / 1000 else 38 * on / 1000 + 1 :=
  roundRat_of_tie (by rw [Config.freqKhz, h])

/-- HALF_UP adds one half and takes the floor (R144). -/
theorem cycles_halfUp (on : Nat) : cycles .halfUp on = (38 * on + 500) / 1000 := by
  by_cases h : 38 * on % 1000 = 500
  · have upper := (cycles_of_tie h).1
    omega
  · exact cycles_of_no_tie .halfUp h

/-- HALF_EVEN takes the lower neighbour of a tie exactly at on mod 1000 = 750, where that neighbour is even (R152). -/
theorem cycles_halfEven (on : Nat) :
    cycles .halfEven on = if on % 1000 = 750 then 38 * on / 1000 else (38 * on + 500) / 1000 := by
  by_cases h : 38 * on % 1000 = 500
  · rw [(cycles_of_tie h).2]
    split_ifs <;> omega
  · rw [cycles_of_no_tie .halfEven h, if_neg (by omega)]

/-- The cycle count lies at most one half from 38·on/1000, whatever the tie rule. -/
theorem cycles_nearest (tie : Tie) (on : Nat) :
    1000 * cycles tie on ≤ 38 * on + 500 ∧ 38 * on ≤ 1000 * cycles tie on + 500 := by
  cases tie with
  | halfUp => rw [cycles_halfUp]; omega
  | halfEven => rw [cycles_halfEven]; split_ifs <;> omega

/-- Settles O28: every count is a nearest one; a tie is at on mod 1000 = 250, where the upper neighbour is even, or at 750,
where the lower one is. -/
theorem cyclesIsTheNearestInteger : Obligations.CyclesIsTheNearestInteger := by
  refine fun on => ⟨fun tie => ?_, cycles_halfUp on, fun htie => ?_⟩
  · have near := cycles_nearest tie on
    omega
  · rw [cycles_halfEven]
    split_ifs <;> omega

/-- Settles O26: boundaries and on time meet no tie; the two cycle counts are compared by their formulas. -/
theorem tieRulesDifferOnlyAt750 : Obligations.TieRulesDifferOnlyAt750 := by
  refine ⟨fun m => ?_, ?_, cycles_tie_iff, fun on => ?_, fun on hon => ?_⟩
  · rw [cycleEnd_eq, cycleEnd_eq]
  · rw [carrierOn_eq, carrierOn_eq]
  · rw [cycles_halfUp, cycles_halfEven]
    split_ifs <;> omega
  · rw [cycles_halfUp, cycles_halfEven, if_pos hon]
    omega

/-! ### The sub-pulses -/

@[simp] theorem carrierPulses_length (n : Nat) : (carrierPulses n).length = n := by
  simp [carrierPulses]

/-- The written-out sub-pulses by the cycle boundaries, under either tie rule (R146). -/
theorem carrierPulses_eq_boundaries (tie : Tie) (n : Nat) :
    carrierPulses n = (List.range n).map fun c =>
      { on := 9, off := BitVec.ofNat 32 (cycleEnd tie (c + 1) - cycleEnd tie c - 9) } := by
  simp only [carrierPulses, Nat.sub_sub, cycleEnd_off_eq_pattern]

/-- Settles O23: off value by off value, the distance of two cycle boundaries less 9 is the pattern's. -/
theorem synthGivesThePattern : Obligations.SynthGivesThePattern := synth_eq_carrierPulses

/-- Settles O24: the boundaries are those of the floor formula for T, where no tie rule enters. -/
theorem cycleBoundariesKeepTheGrid : Obligations.CycleBoundariesKeepTheGrid := by
  refine fun tie => ⟨by rw [cycleEnd_eq], carrierOn_eq tie, fun on => ?_, fun m => ⟨cycleEnd_succ tie m, ?_⟩, ?_⟩
  · rw [synth_eq_carrierPulses, carrierPulses_eq_boundaries tie]
  · rw [Nat.add_comm m, Nat.add_comm _ 500]
    exact cycleEnd_add_periods tie 1 m
  · simp only [cycleEnd_eq, carrierOn_eq]
    decide

/-- The durations of the sub-pulses telescope to the last cycle boundary (R148). -/
theorem totalDuration_carrierPulses (tie : Tie) (n : Nat) : totalDuration (carrierPulses n) = cycleEnd tie n := by
  rw [carrierPulses_eq_boundaries tie, totalDuration, List.map_map]
  induction n with
  | zero => rw [cycleEnd_eq]; rfl
  | succ n ih =>
    have boundary := cycleEnd_succ tie n
    rw [List.sum_range_succ, ih]
    simp only [Function.comp_apply, BitVec.toNat_ofNat]
    change _ + (9 + _) = _
    omega

/-- The cycle boundary at the cycle count lies within 13 µs of the duration: half a cycle, and T's own rounding (R148). -/
theorem cycleEnd_cycles_near (tie : Tie) (on : Nat) :
    cycleEnd tie (cycles tie on) ≤ on + 13 ∧ on ≤ cycleEnd tie (cycles tie on) + 13 := by
  have near := cycles_nearest tie on
  rw [cycleEnd_eq]
  omega

/-- Settles O25: the total is the last boundary, and that lies near the requested duration. -/
theorem synthDurationWithinThirteen : Obligations.SynthDurationWithinThirteen := by
  intro tie on seq hseq
  obtain rfl : carrierPulses (cycles tie on.toNat) = seq := by simpa [synth_eq_carrierPulses] using hseq
  rw [totalDuration_carrierPulses tie]
  exact ⟨carrierPulses_length _, rfl, cycleEnd_cycles_near tie on.toNat⟩

/-- The expansion of a symbol has one Pulse more than it has cycles (R145). -/
@[simp] theorem symbolExpansion_length (tie : Tie) (p : Pulse) :
    (symbolExpansion tie p).length = cycles tie p.on.toNat + 1 := by
  simp [symbolExpansion]

/-! ### How SYNTH and EXPAND end -/

/-- SYNTH completes the written-out sub-pulses: the count tested first is their number (R150, R173). -/
theorem exec_synth_eq (s : State) :
    exec .synth s = .next (s.complete (carrierPulses (cycles s.params.roundTie s.regs.argOn.toNat))) :=
  congrArg Host.Outcome.next (State.finishSized_ok (synth_eq_carrierPulses _ _) (carrierPulses_length _))

/-- EXPAND completes the written-out expansion of its operands (R151, R173). -/
theorem exec_expand_eq (s : State) :
    exec .expand s = .next (s.complete (symbolExpansion s.params.roundTie { on := s.regs.argOn, off := s.regs.argOff })) :=
  congrArg Host.Outcome.next (State.finishSized_ok (expandSym_eq_symbolExpansion _ _) (symbolExpansion_length _ _))

/-- Settles O29: SYNTH completes the sub-pulses, which are Cycles(ARG_ON) in number. -/
theorem synthOutputsTheCarrier : Obligations.SynthOutputsTheCarrier := by
  intro s n
  have outcomes := State.complete_outcomes (exec_synth_eq s)
  rwa [carrierPulses_length] at outcomes

/-- Settles O30: EXPAND completes the sub-pulses and the space Pulse. -/
theorem expandOutputsTheSymbol : Obligations.ExpandOutputsTheSymbol := fun s => State.complete_outcomes (exec_expand_eq s)

/-! ### Thresholds and corner cases -/

/-- ERR tells whether the output fitted the pulse buffer (R173). -/
theorem State.complete_err (s : State) (seq : List Pulse) :
    ((s.complete seq).err = 4 ↔ s.params.pulseCap < seq.length) ∧
      ((s.complete seq).err = 0 ↔ seq.length ≤ s.params.pulseCap) := by
  obtain ⟨hlen, h⟩ | ⟨hlen, h⟩ := s.complete_cases seq
  · simp [h, hlen, Cause.code]
  · simp [h, hlen]

/-- Settles O31: a nearest integer is already past the buffer at the threshold, and below it not yet. -/
theorem capacityThresholdsOfTheCarrier : Obligations.CapacityThresholdsOfTheCarrier := by
  intro s hcap
  have near := cycles_nearest s.params.roundTie s.regs.argOn.toNat
  refine ⟨⟨_, exec_synth_eq s, ?_⟩, ⟨_, exec_expand_eq s, ?_⟩⟩
  · rw [(s.complete_err _).1, (s.complete_err _).2, carrierPulses_length, hcap]
    omega
  · rw [(s.complete_err _).1, (s.complete_err _).2, symbolExpansion_length, hcap]
    dsimp only
    omega

/-- Settles O27: at each corner only one cycle count is nearest. -/
theorem shortIntervalsGiveFewCycles : Obligations.ShortIntervalsGiveFewCycles := by
  intro tie
  have near := cycles_nearest tie
  have longest : cycles tie (2 ^ 32 - 1) = 163208757 := by have := near (2 ^ 32 - 1); omega
  refine ⟨fun on hon => ?_, fun on hlo hhi => ?_, ?_, longest, fun s wf hs hon i hi => ?_⟩
  · have noCycle : cycles tie on.toNat = 0 := by have := near on.toNat; omega
    refine ⟨?_, fun off => ?_⟩
    · rw [synth_eq_carrierPulses, noCycle]; rfl
    · rw [expandSym_eq_symbolExpansion, symbolExpansion, noCycle]; rfl
  · have oneCycle : cycles tie on.toNat = 1 := by have := near on.toNat; omega
    rw [synth_eq_carrierPulses, oneCycle]; rfl
  · have twoCycles : cycles tie (40 : Word).toNat = 2 := by
      have := near 40
      change cycles tie 40 = 2
      omega
    rw [synth_eq_carrierPulses, twoCycles]; rfl
  · obtain ⟨-, -, -, hcap⟩ := wf
    have count : cycles s.params.roundTie s.regs.argOn.toNat = 163208757 := by rw [hs, hon]; exact longest
    obtain rfl | rfl : i = .synth ∨ i = .expand := by simpa using hi
    · refine (State.complete_outcomes (exec_synth_eq s)).2 ?_
      rw [carrierPulses_length, count]
      omega
    · refine (State.complete_outcomes (exec_expand_eq s)).2 ?_
      rw [symbolExpansion_length, count]
      omega

end Sys2Proof.Machine

/-! ### Proofs: the control commands NOP and CLEAR (43_control.md) -/

namespace Sys2Proof.Machine

open Sys2Proof

/-- NOP writes the result alone (R160). -/
theorem exec_nop_eq (s : State) : exec .nop s = .next (s.setResult 0 0) := rfl

/-- CLEAR writes PULSE_COUNT and the result alone (R161). -/
theorem exec_clear_eq (s : State) : exec .clear s = .next ((s.setCount 0).setResult 0 0) := rfl

/-- Settles O9: the word evaluated, and NOP's one write. -/
theorem nopClearsTheErrorOnly : Obligations.NopClearsTheErrorOnly :=
  ⟨by decide, exec_nop_eq⟩

/-- Settles O10: the word evaluated, and CLEAR's two writes; with PULSE_COUNT 0 no entry is visible. -/
theorem clearEmptiesTheOutput : Obligations.ClearEmptiesTheOutput := by
  refine ⟨by decide, fun s => ⟨_, exec_clear_eq s, rfl, State.visiblePulse_of_empty ?_⟩⟩
  rw [State.setResult_pulseCount, State.setCount_pulseCount]

end Sys2Proof.Machine

/-! ### Proofs: errors, empty outputs and progress (60_exceptions.md)

A safe state steps because each meaningful input is answered and a step takes one input off the port; legality is kept by
every step. -/

namespace Sys2Proof.Machine

open Sys2Proof

/-! ### Progress -/

/-- The engine's turn always ends in a next state, whatever word is latched (R85, R177). -/
theorem engineStep_next (s : State) : ∃ t, engineStep s = .next t := by
  obtain ⟨_, _, _, _, _, e⟩ | ⟨_, _, _, e⟩ | ⟨_, e⟩ := engineStep_cases s
  · exact ⟨_, e⟩
  · exact ⟨_, e⟩
  · exact ⟨_, e⟩

/-- A meaningful input is answered with a next state (R62, R177). -/
theorem handle_next_of_meaningful {e : PortEvent} (he : e.meaningful = true) (s : State) : ∃ t, handle e s = .next t := by
  cases e with
  | read off bytes => exact ⟨_, if_pos he⟩
  | write off bytes v => exact ⟨_, if_pos he⟩
  | engine => exact engineStep_next s
  | reset b => exact ⟨_, rfl⟩

/-- With only meaningful inputs pending a step has a next state. -/
theorem step_next_of_meaningful {s : State} (h : ∀ e ∈ s.port, e.meaningful = true) : ∃ t, step s = .next t := by
  cases hp : s.port with
  | nil =>
    obtain ⟨t, ht⟩ := engineStep_next s
    exact ⟨t, by simpa only [step, hp] using ht⟩
  | cons e rest =>
    rw [step_cons hp]
    exact handle_next_of_meaningful (h e (by simp [hp])) _

theorem State.hostRead_port {s t : State} {a n : Nat} (h : s.hostRead a n = .next t) : t.port = s.port := by
  obtain ⟨_, e⟩ | ⟨_, _, _, e⟩ | ⟨_, e⟩ := s.hostRead_cases a n <;> rw [e] at h
  · cases h; rfl
  · cases h; rfl
  · cases h

theorem State.setReset_port (s : State) (b : Bool) : (s.setReset b).port = s.port := by
  obtain ⟨_, e⟩ | ⟨_, _, e⟩ := s.setReset_cases b <;> rw [e]
  rfl

theorem engineStep_port {s t : State} (h : engineStep s = .next t) : t.port = s.port := by
  obtain ⟨_, _, _, _, _, _, _, port, _⟩ := engineStep_sameInputs h
  exact port

/-- A step takes the first pending input, if there is one, and leaves the others pending (R69). -/
theorem step_port {s t : State} (h : step s = .next t) : t.port = s.port.tail := by
  obtain (⟨hp, he⟩ | ⟨rest, hp, he⟩) | ⟨a, n, rest, hp, _, he⟩ | ⟨a, v, rest, hp, _, rfl⟩ | ⟨b, rest, hp, rfl⟩ := step_cases h
  · rw [engineStep_port he, hp]; rfl
  · rw [engineStep_port he, hp]; rfl
  · rw [State.hostRead_port he, hp]; rfl
  · rw [State.memWrite_port, hp]; rfl
  · rw [State.setReset_port, hp]; rfl

/-- Progress and preservation: a safe state has a next state, and that state is safe. -/
theorem State.Safe.step {s : State} (h : s.Safe) : ∃ t, step s = .next t ∧ t.Safe := by
  obtain ⟨legal, pending⟩ := h
  obtain ⟨t, ht⟩ := step_next_of_meaningful pending
  refine ⟨t, ht, (stepKeepsLegality s t legal ht).1, fun e he => pending e ?_⟩
  rw [step_port ht] at he
  exact List.mem_of_mem_tail he

/-- Settles O52: by induction on the number of steps, each by progress and preservation. -/
theorem safeStatesNeverStop : Obligations.SafeStatesNeverStop := by
  intro s h n
  induction n generalizing s with
  | zero => exact ⟨s, run_zero s, h⟩
  | succ n ih =>
    obtain ⟨t, ht, safe⟩ := h.step
    rw [run_succ ht]
    exact ih t safe

/-! ### Results and outputs -/

/-- The state's ERR and ERRINFO are a pair of R171, and after an error there is no output (R172). -/
def State.ResultShown (s : State) : Prop :=
  resultLegal s.err s.errInfo ∧ (s.err ≠ 0 → s.pulseCount = 0)

/-- A success has the pair (0, 0), whatever its output (R170). -/
theorem State.resultShown_setResult_zero (s : State) : (s.setResult 0 0).ResultShown :=
  ⟨.inl ⟨rfl, rfl⟩, fun failed => absurd rfl failed⟩

theorem State.resultShown_raiseErr (s : State) (c : Cause) : (s.raiseErr c).ResultShown :=
  ⟨c.resultLegal, fun _ => rfl⟩

/-- Every command ends with a result of R171, and with no output after an error. -/
theorem exec_resultShown (i : Instr) (s : State) : ∃ t, exec i s = .next t ∧ t.ResultShown := by
  obtain ⟨_, e⟩ | ⟨_, e⟩ | ⟨c, e⟩ | ⟨seq, e⟩ := exec_cases i s
  · exact ⟨_, e, State.resultShown_setResult_zero _⟩
  · exact ⟨_, e, State.resultShown_setResult_zero _⟩
  · exact ⟨_, e, State.resultShown_raiseErr s c⟩
  · refine ⟨_, e, ?_⟩
    obtain ⟨_, stored⟩ | ⟨_, stored⟩ := s.complete_cases seq <;> rw [stored]
    · exact State.resultShown_raiseErr s _
    · exact State.resultShown_setResult_zero _

/-- Settles O34: with PULSE_COUNT 0 after an error no entry of the pulse window is visible. -/
theorem failedCommandShowsNoOutput : Obligations.FailedCommandShowsNoOutput := by
  intro i s
  obtain ⟨t, ht, legal, noOutput⟩ := exec_resultShown i s
  exact ⟨t, ht, legal, fun failed => ⟨noOutput failed, State.visiblePulse_of_empty (noOutput failed)⟩⟩

/-! ### Empty outputs -/

/-- Completing no Pulse at all is a success: no buffer is too small for it, and no entry is written (R173, R175). -/
theorem State.complete_nil (s : State) : s.complete [] = (s.setCount 0).setResult 0 0 :=
  State.complete_of_le (Nat.zero_le _)

/-- A frame with no start pair, no header, no footer and a data field of width 0 has no symbol (R125). -/
theorem symbols_eq_nil (k : Nat) {s : State} (start : s.regs.present.startEn = false) (header : s.regs.present.hdrEn = false)
    (footer : s.regs.present.ftrEn = false) (data : s.regs.pcfg.dataSize = 0) : symbols k s = [] := by
  apply List.eq_nil_of_length_eq_zero
  simp [symbols_length, start, header, footer, data]

/-- At most 13 µs are less than half a carrier cycle (R144, R147). -/
theorem cycles_eq_zero (tie : Tie) {on : Nat} (h : on ≤ 13) : cycles tie on = 0 := by
  have near := cycles_nearest tie on
  omega

/-- Settles O35: the frame has no symbol, so GEN has none to expand, and SYNTH has no cycle; each completes no Pulse. -/
theorem emptyOutputIsASuccess : Obligations.EmptyOutputIsASuccess := by
  have succeeds {i : Instr} {s : State} (h : exec i s = .next (s.complete [])) :
      ∃ t, exec i s = .next t ∧ t.err = 0 ∧ t.errInfo = 0 ∧ t.pulseCount = 0 :=
    ⟨_, by rw [h, State.complete_nil], rfl, rfl, rfl⟩
  refine ⟨fun k s ok start header footer data i hi => succeeds ?_, fun s hon => succeeds ?_⟩
  · have passes := checkFrame_of_frameOk ok
    have empty := symbols_eq_nil k start header footer data
    obtain rfl | rfl : i = .frame k ∨ i = .gen k := by simpa using hi
    · simp only [exec, execFrame, passes, empty]
    · rw [exec_gen_of_check passes, empty]
      rfl
  · rw [exec_synth_eq, cycles_eq_zero _ hon]
    rfl

end Sys2Proof.Machine

/-! ### Proofs: reset, hazards and the engine's turn (70_reset_and_hazards.md) -/

namespace Sys2Proof.Machine

open Sys2Proof

/-! ### The write hazard -/

/-- Settles O41: a latched command finds the reset input released, so the write is STATUS's or a hazard; what clears HAZ is
among the changes of the flags. -/
theorem busyWriteIsIgnoredAndSetsHaz : Obligations.BusyWriteIsIgnoredAndSetsHaz := by
  refine ⟨fun s a v rest legal h4 ha hb hp => ?_, fun s t hs => ?_⟩
  · have released := legal.released_of_busy hb
    rw [step_write hp (admitted_of_aligned h4 ha)]
    by_cases status : a = 0x004
    · subst status
      rw [State.memWrite_status (s := s.setPort rest) released, if_pos rfl]
      rfl
    · rw [State.memWrite_hazard (s := s.setPort rest) released hb status, if_neg status]
      rfl
  · obtain ⟨-, -, -, -, clearsHaz, -⟩ := flagsChangeOnlyAsListed s t hs
    exact clearsHaz

/-! ### The reset input -/

/-- The reset values are values of the block's own state. -/
theorem State.AtReset.of_sameBlock {s t : State} (h : s.AtReset) (same : s.SameBlock t) : t.AtReset := by
  obtain ⟨hb, hh, he, hi, hl, hg, hc, hk⟩ := h
  obtain ⟨-, -, sb, sh, se, si, sl, sg, sk, sc, -, -⟩ := same
  refine ⟨sb.trans hb, sh.trans hh, se.trans he, si.trans hi, sl.trans hl, sg.trans hg, sc.trans hc, fun k => ?_⟩
  rw [State.keyAt, sk]
  exact hk k

/-- When the reset input is asserted, and when it is released after that, the block takes its reset values (R190). -/
theorem step_reset {s : State} {b : Bool} {rest : List PortEvent} (hp : s.port = .reset b :: rest)
    (h : b = true ∨ s.inReset = true) : step s = .next ((s.setPort rest).resetBlock b) := by
  have changes : (b || s.inReset) = true := by simpa using h
  rw [step_cons hp, handle, State.setReset, State.setPort_inReset, if_pos changes]

/-- While the reset input is asserted only its own events change the block (R190). -/
theorem step_of_inReset {s t : State} (hr : s.inReset = true) (hb : s.busy = false) (hs : step s = .next t) :
    (∃ b rest, s.port = .reset b :: rest ∧ t = (s.setPort rest).resetBlock b) ∨
      (¬ ∃ b rest, s.port = .reset b :: rest) ∧ s.SameBlock t := by
  have quiet := readsAndIdleTurnsChangeNothing s t hs
  cases hp : s.port with
  | nil => exact .inr ⟨by simp, quiet (.inr (.inl ⟨hb, .inl hp⟩))⟩
  | cons e rest =>
    cases e with
    | read a n => exact .inr ⟨by simp, quiet (.inl ⟨a, n, rest, hp⟩)⟩
    | write a n v => exact .inr ⟨by simp, quiet (.inr (.inr (.inl ⟨hr, a, n, v, rest, hp⟩)))⟩
    | engine => exact .inr ⟨by simp, quiet (.inr (.inl ⟨hb, .inr ⟨rest, hp⟩⟩))⟩
    | reset b => exact .inl ⟨b, rest, rfl, Host.Outcome.next.inj (hs.symm.trans (step_reset hp (.inr hr)))⟩

/-- Settles O48: an event of the input gives the reset values, and while it is asserted nothing else changes the block. -/
theorem resetDiscardsTheCommand : Obligations.ResetDiscardsTheCommand := by
  refine ⟨fun s b rest hp h => ?_, fun s t legal hr hs => ?_, fun s a v rest hr h4 ha hp => ?_⟩
  · exact ⟨_, step_reset hp h, State.resetBlock_atReset _ b, rfl, rfl, rfl, State.visiblePulse_of_empty rfl⟩
  · have held := legal.heldReset hr
    have ⟨idle, _⟩ := held
    obtain ⟨b, rest, hp, rfl⟩ | ⟨noEvent, same⟩ := step_of_inReset hr idle hs
    · exact ⟨State.resetBlock_atReset _ b, rfl, by simp [hp]⟩
    · have ⟨params, level, _⟩ := same
      refine ⟨held.of_sameBlock same, params, ?_⟩
      rw [level, hr]
      exact iff_of_false Bool.noConfusion fun ⟨rest, hp⟩ => noEvent ⟨false, rest, hp⟩
  · rw [step_write hp (admitted_of_aligned h4 ha), State.memWrite_of_inReset (s := s.setPort rest) hr]
    rfl

/-! ### The engine's turn -/

/-- Settles O7: the step is the engine's turn, by the word that LATCH decodes to. -/
theorem stepPerformsTheLatchedCommand : Obligations.StepPerformsTheLatchedCommand := by
  intro s s' turn
  obtain ⟨hstep, busy, latch⟩ : step s = engineStep s' ∧ s'.busy = s.busy ∧ s'.latch = s.latch := by
    obtain ⟨hp, rfl⟩ | ⟨rest, hp, rfl⟩ := turn
    · exact ⟨by rw [step, hp], rfl, rfl⟩
    · exact ⟨step_cons hp, rfl, rfl⟩
  rw [hstep, ← busy, ← latch]
  refine ⟨fun i hb hd => ?_, fun r hb hd => engineStep_of_illegal hb hd, engineStep_of_idle⟩
  obtain ⟨t, ht⟩ := exec_next i s'
  exact ⟨t, ht, engineStep_of_command hb hd ht⟩

/-- The placed word stands in LATCH with BUSY set, and the engine's turn is the next input. -/
theorem State.withFetchWord_eq (s : State) (w : Word) :
    s.withFetchWord 32 w.toNat = { s with latch := w, busy := true, inReset := false, port := .engine :: s.port } := by
  have hw : BitVec.ofNat 32 (w.toNat % 2 ^ 32) = w := by
    rw [Nat.mod_eq_of_lt w.isLt, BitVec.ofNat_toNat, BitVec.setWidth_eq]
  rw [State.withFetchWord, hw]
  rfl

/-- Settles O8: the engine's turn on the placed word. -/
theorem fetchWordRunsNext : Obligations.FetchWordRunsNext := by
  intro s w i hd
  obtain ⟨t, ht⟩ := exec_next i { s with latch := w, busy := true, inReset := false }
  refine ⟨t, ht, ?_⟩
  rw [State.withFetchWord_eq]
  exact step_engine_of_command ht rfl rfl hd

/-! ### Reads while BUSY = 1 -/

/-- A read that BUSY = 1 hides returns the free value of the next draw and uses the draw up (R203). -/
theorem State.memRead_hidden {s : State} {a : Nat} (hb : s.busy = true) (h : (regAt s.params a).hiddenWhileBusy = true) :
    s.memRead a = (Config.freeWord s.draws a, s.drawn) := by
  simp [State.memRead, hb, h]

/-- PULSE_COUNT and the entries of the pulse window are hidden while BUSY = 1 (R66, R203). -/
theorem regAt_hiddenWhileBusy {p : Params} (hp : p.wf) {a : Nat} (h4 : a % 4 = 0)
    (h : a = 0x058 ∨ 0x10000 ≤ a ∧ a < 0x10000 + 8 * p.pulseCap) : (regAt p a).hiddenWhileBusy = true := by
  obtain rfl | ⟨lower, upper⟩ := h
  · rfl
  · obtain ⟨i, rfl | rfl⟩ : ∃ i, a = 0x10000 + 8 * i ∨ a = 0x10004 + 8 * i := ⟨(a - 0x10000) / 8, by omega⟩
    · rw [(regAt_pulse hp (by omega)).1]; rfl
    · rw [(regAt_pulse hp (by omega)).2]; rfl

/-- Settles O37: the read as one step, of a hidden register or of a reserved offset. -/
theorem busyReadsOfTheOutputAreFree : Obligations.BusyReadsOfTheOutputAreFree := by
  intro s a rest hp hb h4 hport
  refine ⟨fun output => ?_, fun above ha => ?_⟩
  · have ha : a < 0x20000 := by obtain ⟨-, -, -, hcap⟩ := hp; omega
    rw [step_read hport (admitted_of_aligned h4 ha),
      State.memRead_hidden (s := s.setPort rest) hb (regAt_hiddenWhileBusy hp h4 output)]
    rfl
  · have reserved : regAt (s.setPort rest).params a = .reserved := regAt_above_pulses hp above
    rw [step_read hport (admitted_of_aligned h4 ha), State.memRead_visible (by rw [reserved]; rfl), reserved]
    rfl

/-! ### After reset -/

/-- No key is defined after reset. -/
theorem State.reset_keyAt_valid (k : Nat) : (State.reset.keyAt k).valid = false := by
  obtain ⟨-, -, -, -, -, -, -, noKey⟩ := State.resetWith_atReset Params.spec 0
  exact noKey k

/-- The block after reset with the bits ZERO_VALID and ONE_VALID of PRESENT as given: the states R192 names. -/
def State.resetWithPairs (zero one : Bool) : State :=
  { State.reset with regs := { Regs.zeros with present := { Regs.zeros.present with zeroValid := zero, oneValid := one } } }

@[simp] theorem State.resetWithPairs_regs (zero one : Bool) : (State.resetWithPairs zero one).regs =
    { Regs.zeros with present := { Regs.zeros.present with zeroValid := zero, oneValid := one } } := rfl

/-- The first check that fails there: each pair in turn, then the key (R123, R192). -/
theorem checkFrame_resetWithPairs (k : Nat) (zero one : Bool) :
    checkFrame k (State.resetWithPairs zero one) =
      some (if zero = false then .zeroPairMissing else if one = false then .onePairMissing else .keyNotFound k) := by
  cases zero with
  | false => rfl
  | true =>
    cases one with
    | false => rfl
    | true =>
      have missing : (State.resetWithPairs true true).keyMissing k = true :=
        State.keyMissing_iff.mpr (.inr (State.reset_keyAt_valid k))
      simp [checkFrame, missing, Regs.zeros]

/-- Settles O49: FRAME and GEN end at the first failing check; the other commands have nothing to check, and with ARG_ON 0
there is no cycle, so that no output is longer than the space Pulse of EXPAND. -/
theorem whatWorksAfterReset : Obligations.WhatWorksAfterReset := by
  intro k
  have noCycle : cycles State.reset.params.roundTie State.reset.regs.argOn.toNat = 0 := cycles_eq_zero _ (Nat.zero_le 13)
  refine ⟨fun i hi => ?_, fun i hi => ?_⟩
  · have fails (zero one : Bool) {c : Cause} (hc : checkFrame k (State.resetWithPairs zero one) = some c) :
        ∃ t, exec i (State.resetWithPairs zero one) = .next t ∧ t.err = c.code ∧ t.errInfo = c.info := by
      obtain ⟨t, ht, err, info, -⟩ := exec_of_failing_check hi hc
      exact ⟨t, ht, err, info⟩
    exact ⟨fails false false (checkFrame_resetWithPairs k false false),
      fails true false (checkFrame_resetWithPairs k true false), fails true true (checkFrame_resetWithPairs k true true)⟩
  · have completes {seq : List Pulse} (h : exec i State.reset = .next (State.reset.complete seq))
        (fits : seq.length ≤ State.reset.params.pulseCap) : ∃ t, exec i State.reset = .next t ∧ t.err = 0 :=
      ⟨_, h, (State.complete_err _ seq).2.mpr fits⟩
    obtain rfl | rfl | rfl | rfl : i = .synth ∨ i = .expand ∨ i = .nop ∨ i = .clear := by simpa using hi
    · refine completes (exec_synth_eq _) ?_
      rw [carrierPulses_length, noCycle]
      decide
    · refine completes (exec_expand_eq _) ?_
      rw [symbolExpansion_length, noCycle]
      decide
    · exact ⟨_, exec_nop_eq _, rfl⟩
    · exact ⟨_, exec_clear_eq _, rfl⟩

end Sys2Proof.Machine
